-- ==== Sys2Proof/Word.lean ====
section
/-! DEFINITION. The word types of the CHIP8 interpreter core and their plainest arithmetic
(spec/00_scope.md R3, R10 to R12: all values are unsigned; data is 8 bits wide, an instruction 16). -/

namespace Sys2Proof

/-- One byte: a general register, a timer, a memory cell (R3). -/
abbrev Byte := BitVec 8

/-- Sixteen bits: an opcode, `pc`, `I`, a stack entry (R20). -/
abbrev Word := BitVec 16

/-- A 4-bit field of an opcode, and with it a register index or a key (R75, R82). -/
abbrev Nibble := BitVec 4

/-- The 12-bit address field `NNN` (R75, R81). -/
abbrev Address := BitVec 12

/-- `zext_16` of rule R11: zero extension to 16 bits. No instruction extends a sign. -/
abbrev zext16 {w : Nat} (b : BitVec w) : Word := b.setWidth 16

end Sys2Proof
end

