-- ==== Sys2Proof/Syntax.lean ====
section
/-! DEFINITION. The instruction set as syntax: one constructor per row of spec/opcode_table.json
(spec/30_encoding.md R84), with the operand fields its format carries (R75, R80). Every field has exactly
the width the encoding gives it, so every value of the type is a form the spec accepts (R82). The row's
pattern is named in each docstring; the mnemonics are labels (R87). -/

namespace Sys2Proof

/-- The 34 instructions of R84. -/
inductive Instr where
  /-- 00E0 `CLS` (R170). -/
  | cls
  /-- 00EE `RET` (R100). -/
  | ret
  /-- 1NNN `JP nnn` (R101). -/
  | jp (nnn : Address)
  /-- 2NNN `CALL nnn` (R102). -/
  | call (nnn : Address)
  /-- 3XNN `SE Vx, nn` (R104). -/
  | seVxNn (x : Nibble) (nn : Byte)
  /-- 4XNN `SNE Vx, nn` (R105). -/
  | sneVxNn (x : Nibble) (nn : Byte)
  /-- 5XY0 `SE Vx, Vy` (R106). -/
  | seVxVy (x y : Nibble)
  /-- 6XNN `LD Vx, nn` (R121). -/
  | ldVxNn (x : Nibble) (nn : Byte)
  /-- 7XNN `ADD Vx, nn` (R122). -/
  | addVxNn (x : Nibble) (nn : Byte)
  /-- 8XY0 `LD Vx, Vy` (R123). -/
  | ldVxVy (x y : Nibble)
  /-- 8XY1 `OR Vx, Vy` (R124). -/
  | orVxVy (x y : Nibble)
  /-- 8XY2 `AND Vx, Vy` (R125). -/
  | andVxVy (x y : Nibble)
  /-- 8XY3 `XOR Vx, Vy` (R126). -/
  | xorVxVy (x y : Nibble)
  /-- 8XY4 `ADD Vx, Vy` (R127). -/
  | addVxVy (x y : Nibble)
  /-- 8XY5 `SUB Vx, Vy` (R128). -/
  | subVxVy (x y : Nibble)
  /-- 8XY6 `SHR Vx` (R129); the `Y` field is kept, and ignored by the meaning (R82). -/
  | shrVx (x y : Nibble)
  /-- 8XY7 `SUBN Vx, Vy` (R130). -/
  | subnVxVy (x y : Nibble)
  /-- 8XYE `SHL Vx` (R131); the `Y` field is kept, and ignored by the meaning (R82). -/
  | shlVx (x y : Nibble)
  /-- 9XY0 `SNE Vx, Vy` (R107). -/
  | sneVxVy (x y : Nibble)
  /-- ANNN `LD I, nnn` (R150). -/
  | ldINnn (nnn : Address)
  /-- BNNN `JP V0, nnn` (R103). -/
  | jpV0Nnn (nnn : Address)
  /-- CXNN `RND Vx, nn` (R132). -/
  | rndVxNn (x : Nibble) (nn : Byte)
  /-- DXYN `DRW Vx, Vy, n` (R172). -/
  | drwVxVyN (x y n : Nibble)
  /-- EX9E `SKP Vx` (R191). -/
  | skpVx (x : Nibble)
  /-- EXA1 `SKNP Vx` (R192). -/
  | sknpVx (x : Nibble)
  /-- FX07 `LD Vx, DT` (R196). -/
  | ldVxDt (x : Nibble)
  /-- FX0A `LD Vx, K` (R194). -/
  | ldVxK (x : Nibble)
  /-- FX15 `LD DT, Vx` (R197). -/
  | ldDtVx (x : Nibble)
  /-- FX18 `LD ST, Vx` (R198). -/
  | ldStVx (x : Nibble)
  /-- FX1E `ADD I, Vx` (R151). -/
  | addIVx (x : Nibble)
  /-- FX29 `LD F, Vx` (R153). -/
  | ldFVx (x : Nibble)
  /-- FX33 `LD B, Vx` (R154). -/
  | ldBVx (x : Nibble)
  /-- FX55 `LD [I], Vx` (R155). -/
  | ldMemVx (x : Nibble)
  /-- FX65 `LD Vx, [I]` (R156). -/
  | ldVxMem (x : Nibble)
  deriving DecidableEq, Repr

end Sys2Proof
end

