-- ==== Sys2Proof/WellFormed.lean ====
section
/-! DEFINITION. Which instruction terms are well-formed: every operand fits the field its format gives it
(spec/30_encoding.md R75, R80 to R82). The operand types already have those widths, so every term passes;
the check on a single field is what could refuse (Tests/Slice0.lean shows it refusing). Beside it stands
the form an assembler writes: unused fields hold 0 (R87). -/

namespace Sys2Proof

/-- One operand of an instruction as a number, and the width in bits of the field that holds it (R75). -/
structure Field where
  value : Nat
  width : Nat
  deriving DecidableEq, Repr

/-- The value fits its field. -/
def Field.fits (f : Field) : Bool := decide (f.value < 2 ^ f.width)

/-- The field that holds a value of `w` bits. -/
def Field.of {w : Nat} (b : BitVec w) : Field := ⟨b.toNat, w⟩

/-- The operand fields of an instruction, leftmost first, by its format (R80). -/
def Instr.fields : Instr → List Field
  | .cls => []
  | .ret => []
  | .jp nnn => [.of nnn]
  | .call nnn => [.of nnn]
  | .seVxNn x nn => [.of x, .of nn]
  | .sneVxNn x nn => [.of x, .of nn]
  | .seVxVy x y => [.of x, .of y]
  | .ldVxNn x nn => [.of x, .of nn]
  | .addVxNn x nn => [.of x, .of nn]
  | .ldVxVy x y => [.of x, .of y]
  | .orVxVy x y => [.of x, .of y]
  | .andVxVy x y => [.of x, .of y]
  | .xorVxVy x y => [.of x, .of y]
  | .addVxVy x y => [.of x, .of y]
  | .subVxVy x y => [.of x, .of y]
  | .shrVx x y => [.of x, .of y]
  | .subnVxVy x y => [.of x, .of y]
  | .shlVx x y => [.of x, .of y]
  | .sneVxVy x y => [.of x, .of y]
  | .ldINnn nnn => [.of nnn]
  | .jpV0Nnn nnn => [.of nnn]
  | .rndVxNn x nn => [.of x, .of nn]
  | .drwVxVyN x y n => [.of x, .of y, .of n]
  | .skpVx x => [.of x]
  | .sknpVx x => [.of x]
  | .ldVxDt x => [.of x]
  | .ldVxK x => [.of x]
  | .ldDtVx x => [.of x]
  | .ldStVx x => [.of x]
  | .addIVx x => [.of x]
  | .ldFVx x => [.of x]
  | .ldBVx x => [.of x]
  | .ldMemVx x => [.of x]
  | .ldVxMem x => [.of x]

/-- Every operand fits its field (R82: all values of each field are valid). -/
def Instr.wellFormed (i : Instr) : Bool := i.fields.all Field.fits

/-- The form an assembler writes for the same operands: fields the instruction does not use hold 0 (R87). -/
def Instr.assembled : Instr → Instr
  | .shrVx x _ => .shrVx x 0
  | .shlVx x _ => .shlVx x 0
  | .cls => .cls
  | .ret => .ret
  | .jp nnn => .jp nnn
  | .call nnn => .call nnn
  | .seVxNn x nn => .seVxNn x nn
  | .sneVxNn x nn => .sneVxNn x nn
  | .seVxVy x y => .seVxVy x y
  | .ldVxNn x nn => .ldVxNn x nn
  | .addVxNn x nn => .addVxNn x nn
  | .ldVxVy x y => .ldVxVy x y
  | .orVxVy x y => .orVxVy x y
  | .andVxVy x y => .andVxVy x y
  | .xorVxVy x y => .xorVxVy x y
  | .addVxVy x y => .addVxVy x y
  | .subVxVy x y => .subVxVy x y
  | .subnVxVy x y => .subnVxVy x y
  | .sneVxVy x y => .sneVxVy x y
  | .ldINnn nnn => .ldINnn nnn
  | .jpV0Nnn nnn => .jpV0Nnn nnn
  | .rndVxNn x nn => .rndVxNn x nn
  | .drwVxVyN x y n => .drwVxVyN x y n
  | .skpVx x => .skpVx x
  | .sknpVx x => .sknpVx x
  | .ldVxDt x => .ldVxDt x
  | .ldVxK x => .ldVxK x
  | .ldDtVx x => .ldDtVx x
  | .ldStVx x => .ldStVx x
  | .addIVx x => .addIVx x
  | .ldFVx x => .ldFVx x
  | .ldBVx x => .ldBVx x
  | .ldMemVx x => .ldMemVx x
  | .ldVxMem x => .ldVxMem x

/-- The instruction is in the form an assembler writes (R87). -/
def Instr.isAssembled (i : Instr) : Bool := decide (i.assembled = i)

end Sys2Proof
end

