-- ==== Sys2Proof/Decode.lean ====
section
/-! DEFINITION. Decoding and encoding (spec/30_encoding.md R72, R75 to R86): the fields of an opcode, the
decoder by major nibble and secondary discriminant (R83), total on any word and on any bytes and rejecting
by name, the opcode table with its match and mask (R84), the encoder, and the host's `decodeTableWord`. -/

namespace Sys2Proof

/-- Why no instruction is decoded. -/
inductive Undecoded where
  /-- The word matches no row of the opcode table: an unknown opcode, which the machine runs as a no-op (R77, R85). -/
  | unknownOpcode
  /-- Fewer than the two bytes of an instruction are given (R79). The machine never asks for that. -/
  | truncated
  deriving DecidableEq, Repr

/-! ### The fields of an opcode (R75) -/

/-- `op[15:12]`. -/
def majorOf (op : Word) : Nibble := op.extractLsb' 12 4

/-- `NNN = op[11:0]`. -/
def nnnOf (op : Word) : Address := op.extractLsb' 0 12

/-- `NN = op[7:0]`. -/
def nnOf (op : Word) : Byte := op.extractLsb' 0 8

/-- `N = op[3:0]`. -/
def nOf (op : Word) : Nibble := op.extractLsb' 0 4

/-- `X = op[11:8]`. -/
def xOf (op : Word) : Nibble := op.extractLsb' 8 4

/-- `Y = op[7:4]`. -/
def yOf (op : Word) : Nibble := op.extractLsb' 4 4

/-! ### The decoder (R76, R83) -/

/-- Family 0x0: the whole of `op[11:0]` is the discriminant. -/
def decodeFamily0 (nnn : Address) : Except Undecoded Instr :=
  if nnn = 0x0E0 then .ok .cls
  else if nnn = 0x0EE then .ok .ret
  else .error .unknownOpcode

/-- Family 0x8: `op[3:0]` selects the operation. -/
def decodeFamily8 (x y n : Nibble) : Except Undecoded Instr :=
  if n = 0x0 then .ok (.ldVxVy x y)
  else if n = 0x1 then .ok (.orVxVy x y)
  else if n = 0x2 then .ok (.andVxVy x y)
  else if n = 0x3 then .ok (.xorVxVy x y)
  else if n = 0x4 then .ok (.addVxVy x y)
  else if n = 0x5 then .ok (.subVxVy x y)
  else if n = 0x6 then .ok (.shrVx x y)
  else if n = 0x7 then .ok (.subnVxVy x y)
  else if n = 0xE then .ok (.shlVx x y)
  else .error .unknownOpcode

/-- Family 0xE: `op[7:0]` selects the operation. -/
def decodeFamilyE (x : Nibble) (nn : Byte) : Except Undecoded Instr :=
  if nn = 0x9E then .ok (.skpVx x)
  else if nn = 0xA1 then .ok (.sknpVx x)
  else .error .unknownOpcode

/-- Family 0xF: `op[7:0]` selects the operation. -/
def decodeFamilyF (x : Nibble) (nn : Byte) : Except Undecoded Instr :=
  if nn = 0x07 then .ok (.ldVxDt x)
  else if nn = 0x0A then .ok (.ldVxK x)
  else if nn = 0x15 then .ok (.ldDtVx x)
  else if nn = 0x18 then .ok (.ldStVx x)
  else if nn = 0x1E then .ok (.addIVx x)
  else if nn = 0x29 then .ok (.ldFVx x)
  else if nn = 0x33 then .ok (.ldBVx x)
  else if nn = 0x55 then .ok (.ldMemVx x)
  else if nn = 0x65 then .ok (.ldVxMem x)
  else .error .unknownOpcode

/-- The decoder: dispatch on the top four bits, then on the family's secondary discriminant (R76, R83). Every
fixed nibble of a pattern is tested; every other word is an unknown opcode (R85). -/
def decode (op : Word) : Except Undecoded Instr :=
  let m := majorOf op
  if m = 0x0 then decodeFamily0 (nnnOf op)
  else if m = 0x1 then .ok (.jp (nnnOf op))
  else if m = 0x2 then .ok (.call (nnnOf op))
  else if m = 0x3 then .ok (.seVxNn (xOf op) (nnOf op))
  else if m = 0x4 then .ok (.sneVxNn (xOf op) (nnOf op))
  else if m = 0x5 then
    if nOf op = 0x0 then .ok (.seVxVy (xOf op) (yOf op)) else .error .unknownOpcode
  else if m = 0x6 then .ok (.ldVxNn (xOf op) (nnOf op))
  else if m = 0x7 then .ok (.addVxNn (xOf op) (nnOf op))
  else if m = 0x8 then decodeFamily8 (xOf op) (yOf op) (nOf op)
  else if m = 0x9 then
    if nOf op = 0x0 then .ok (.sneVxVy (xOf op) (yOf op)) else .error .unknownOpcode
  else if m = 0xA then .ok (.ldINnn (nnnOf op))
  else if m = 0xB then .ok (.jpV0Nnn (nnnOf op))
  else if m = 0xC then .ok (.rndVxNn (xOf op) (nnOf op))
  else if m = 0xD then .ok (.drwVxVyN (xOf op) (yOf op) (nOf op))
  else if m = 0xE then decodeFamilyE (xOf op) (nnOf op)
  else decodeFamilyF (xOf op) (nnOf op)

/-- The opcode of two bytes in memory order: the byte at the lower address is bits 15..8 (R52, R72). -/
def opcodeOf (hi lo : Byte) : Word := (zext16 hi <<< 8) ||| zext16 lo

/-- The decoder on bytes: one instruction from the front, and the bytes after it (R52, R79). -/
def decodeBytes : List Byte → Except Undecoded (Instr × List Byte)
  | hi :: lo :: rest => (decode (opcodeOf hi lo)).map (fun i => (i, rest))
  | _ => .error .truncated

/-! ### The encoder (R80, R84) -/

/-- Format A: major nibble and address (R80). -/
def formatA (m : Nibble) (nnn : Address) : Word := (zext16 m <<< 12) ||| zext16 nnn

/-- Format XNN: major nibble, register, byte; with a constant byte it is format XK (R80). -/
def formatXNN (m x : Nibble) (nn : Byte) : Word :=
  (zext16 m <<< 12) ||| (zext16 x <<< 8) ||| zext16 nn

/-- Format XYN: major nibble, two registers, low nibble; with a constant low nibble it is format XY (R80). -/
def formatXYN (m x y n : Nibble) : Word :=
  (zext16 m <<< 12) ||| (zext16 x <<< 8) ||| (zext16 y <<< 4) ||| zext16 n

/-- The opcode of an instruction: its pattern of R84 with the operands in the fields of R75. -/
def encode : Instr → Word
  | .cls => 0x00E0
  | .ret => 0x00EE
  | .jp nnn => formatA 0x1 nnn
  | .call nnn => formatA 0x2 nnn
  | .seVxNn x nn => formatXNN 0x3 x nn
  | .sneVxNn x nn => formatXNN 0x4 x nn
  | .seVxVy x y => formatXYN 0x5 x y 0x0
  | .ldVxNn x nn => formatXNN 0x6 x nn
  | .addVxNn x nn => formatXNN 0x7 x nn
  | .ldVxVy x y => formatXYN 0x8 x y 0x0
  | .orVxVy x y => formatXYN 0x8 x y 0x1
  | .andVxVy x y => formatXYN 0x8 x y 0x2
  | .xorVxVy x y => formatXYN 0x8 x y 0x3
  | .addVxVy x y => formatXYN 0x8 x y 0x4
  | .subVxVy x y => formatXYN 0x8 x y 0x5
  | .shrVx x y => formatXYN 0x8 x y 0x6
  | .subnVxVy x y => formatXYN 0x8 x y 0x7
  | .shlVx x y => formatXYN 0x8 x y 0xE
  | .sneVxVy x y => formatXYN 0x9 x y 0x0
  | .ldINnn nnn => formatA 0xA nnn
  | .jpV0Nnn nnn => formatA 0xB nnn
  | .rndVxNn x nn => formatXNN 0xC x nn
  | .drwVxVyN x y n => formatXYN 0xD x y n
  | .skpVx x => formatXNN 0xE x 0x9E
  | .sknpVx x => formatXNN 0xE x 0xA1
  | .ldVxDt x => formatXNN 0xF x 0x07
  | .ldVxK x => formatXNN 0xF x 0x0A
  | .ldDtVx x => formatXNN 0xF x 0x15
  | .ldStVx x => formatXNN 0xF x 0x18
  | .addIVx x => formatXNN 0xF x 0x1E
  | .ldFVx x => formatXNN 0xF x 0x29
  | .ldBVx x => formatXNN 0xF x 0x33
  | .ldMemVx x => formatXNN 0xF x 0x55
  | .ldVxMem x => formatXNN 0xF x 0x65

/-- The high byte of a word, stored at the lower address (R52). -/
def highByte (op : Word) : Byte := op.extractLsb' 8 8

/-- The low byte of a word (R52). -/
def lowByte (op : Word) : Byte := op.extractLsb' 0 8

/-- The two bytes of an instruction in memory order (R52). -/
def encodeBytes (i : Instr) : List Byte := [highByte (encode i), lowByte (encode i)]

/-! ### The opcode table (R84) -/

/-- The match and mask of an instruction's row: an opcode `op` selects the row when `op & mask == match`. -/
def Instr.row : Instr → Word × Word
  | .cls => (0x00E0, 0xFFFF)
  | .ret => (0x00EE, 0xFFFF)
  | .jp _ => (0x1000, 0xF000)
  | .call _ => (0x2000, 0xF000)
  | .seVxNn _ _ => (0x3000, 0xF000)
  | .sneVxNn _ _ => (0x4000, 0xF000)
  | .seVxVy _ _ => (0x5000, 0xF00F)
  | .ldVxNn _ _ => (0x6000, 0xF000)
  | .addVxNn _ _ => (0x7000, 0xF000)
  | .ldVxVy _ _ => (0x8000, 0xF00F)
  | .orVxVy _ _ => (0x8001, 0xF00F)
  | .andVxVy _ _ => (0x8002, 0xF00F)
  | .xorVxVy _ _ => (0x8003, 0xF00F)
  | .addVxVy _ _ => (0x8004, 0xF00F)
  | .subVxVy _ _ => (0x8005, 0xF00F)
  | .shrVx _ _ => (0x8006, 0xF00F)
  | .subnVxVy _ _ => (0x8007, 0xF00F)
  | .shlVx _ _ => (0x800E, 0xF00F)
  | .sneVxVy _ _ => (0x9000, 0xF00F)
  | .ldINnn _ => (0xA000, 0xF000)
  | .jpV0Nnn _ => (0xB000, 0xF000)
  | .rndVxNn _ _ => (0xC000, 0xF000)
  | .drwVxVyN _ _ _ => (0xD000, 0xF000)
  | .skpVx _ => (0xE09E, 0xF0FF)
  | .sknpVx _ => (0xE0A1, 0xF0FF)
  | .ldVxDt _ => (0xF007, 0xF0FF)
  | .ldVxK _ => (0xF00A, 0xF0FF)
  | .ldDtVx _ => (0xF015, 0xF0FF)
  | .ldStVx _ => (0xF018, 0xF0FF)
  | .addIVx _ => (0xF01E, 0xF0FF)
  | .ldFVx _ => (0xF029, 0xF0FF)
  | .ldBVx _ => (0xF033, 0xF0FF)
  | .ldMemVx _ => (0xF055, 0xF0FF)
  | .ldVxMem _ => (0xF065, 0xF0FF)

/-- One instruction of each row of families 0 to 7, with operands 0 (R84, in its order). -/
def tableInstrsLow : List Instr :=
  [.cls, .ret, .jp 0, .call 0, .seVxNn 0 0, .sneVxNn 0 0, .seVxVy 0 0, .ldVxNn 0 0, .addVxNn 0 0]

/-- One instruction of each row of families 8 to D, with operands 0 (R84, in its order). -/
def tableInstrsMiddle : List Instr :=
  [.ldVxVy 0 0, .orVxVy 0 0, .andVxVy 0 0, .xorVxVy 0 0, .addVxVy 0 0, .subVxVy 0 0, .shrVx 0 0,
    .subnVxVy 0 0, .shlVx 0 0, .sneVxVy 0 0, .ldINnn 0, .jpV0Nnn 0, .rndVxNn 0 0, .drwVxVyN 0 0 0]

/-- One instruction of each row of families E and F, with operands 0 (R84, in its order). -/
def tableInstrsHigh : List Instr :=
  [.skpVx 0, .sknpVx 0, .ldVxDt 0, .ldVxK 0, .ldDtVx 0, .ldStVx 0, .addIVx 0, .ldFVx 0, .ldBVx 0,
    .ldMemVx 0, .ldVxMem 0]

/-- One instruction of each of the 34 rows of the opcode table (R84). -/
def tableInstrs : List Instr := tableInstrsLow ++ tableInstrsMiddle ++ tableInstrsHigh

/-- The opcode table as match and mask pairs (R84). -/
def opcodeTable : List (Word × Word) := tableInstrs.map Instr.row

/-- The opcode selects the row (R84). -/
def selects (row : Word × Word) (op : Word) : Bool := op &&& row.2 == row.1

/-! ### The host's question (log entry 10) -/

/-- The opcode held in the low `nbits` bits of `w`, bit 0 the least significant of the word; bits above `nbits`
are 0 and an instruction has 16 (R79). -/
def tableWord (nbits w : Nat) : Word := BitVec.ofNat 16 (w % 2 ^ nbits)

/-- The instruction the decoder reads from an instruction whose bits are `w`, laid out as the hardware stores it:
high byte at the lower address. -/
def decodeTableWord (nbits w : Nat) : Option Instr :=
  match decodeBytes [highByte (tableWord nbits w), lowByte (tableWord nbits w)] with
  | .ok (i, _) => some i
  | .error _ => none

end Sys2Proof
end

