-- ==== Sys2Proof/Config.lean ====
section
/-! DEFINITION. The implementation parameters of spec/00_scope.md R9, and the core's free values. Every parameter is a
field of the structure `Config`, with the alternatives the spec names; the values this hardware takes are
`Sys2Proof.Machine.hardware` (Machine/Hardware.lean). Log entry 5. -/

namespace Sys2Proof

/-- `FX1E_POLICY` (R9, R151, R152): what FX1E does past 0xFFF. -/
inductive Fx1ePolicy where
  /-- `I <- (I + V[X]) mod 4096`, no flag: this hardware (R151). -/
  | wrap4096
  /-- `I <- (I + V[X]) mod 65536`, no flag (R152). -/
  | wrap65536
  /-- As `wrap4096`, and VF becomes 1 if the sum passed 0xFFF, else 0 (R152). -/
  | flag4096
  deriving DecidableEq, Repr

/-- `KEY_INDEX_POLICY` (R9, R190): EX9E and EXA1 with `V[X] > 0xF`. -/
inductive KeyIndexPolicy where
  /-- Raise `AddressOutOfRange(V[X])`: this hardware (R190). -/
  | fault
  /-- Use `V[X] & 0xF` and raise nothing (R190). -/
  | mask
  deriving DecidableEq, Repr

/-- `RESET_MEMORY` (R9, R26): the bytes `load` does not name. -/
inductive ResetMemory where
  /-- Each is 0x00: this hardware (R26). -/
  | zero
  /-- Each is an oracle byte fixed at load (R9). -/
  | any
  deriving DecidableEq, Repr

/-- The implementation parameters, all 24 rows of R9, under their names there. The values this hardware takes are
`Sys2Proof.Machine.hardware`. -/
structure Config where
  /-- `MEM_SIZE`: bytes of memory, from address 0 (R26). -/
  memSize : Nat
  /-- `ROM_BASE`: load address of the ROM and initial program counter (R253). -/
  romBase : Nat
  /-- `ROM_MAX`: the largest ROM `load` accepts, in bytes (R250). -/
  romMax : Nat
  /-- `FONT_BASE`: address of the font table (R27). -/
  fontBase : Nat
  /-- `GLYPH_BYTES`: bytes per font glyph, and the multiplier of FX29 (R153). -/
  glyphBytes : Nat
  /-- `FONT_BYTES`: size of the font table (R27). -/
  fontBytes : Nat
  /-- `FONT` (R27): the font table. -/
  font : List Byte
  /-- `NUM_V`: general registers (R21). -/
  numV : Nat
  /-- `V_WIDTH`: bits of a general register (R21). -/
  vWidth : Nat
  /-- `I_WIDTH`: bits of the index register (R28). -/
  iWidth : Nat
  /-- `PC_WIDTH`: bits of the program counter (R24). -/
  pcWidth : Nat
  /-- `STACK_CAPACITY`: entries of the return stack (R29). -/
  stackCapacity : Nat
  /-- `STACK_ENTRY_WIDTH`: bits of a stack entry (R29). -/
  stackEntryWidth : Nat
  /-- `DISP_W`: framebuffer width in cells (R35). -/
  dispW : Nat
  /-- `DISP_H`: framebuffer height in cells (R35). -/
  dispH : Nat
  /-- `NUM_KEYS`: keys of the keypad (R36). -/
  numKeys : Nat
  /-- `FX0A_SCAN_END` (R193): FX0A scans keys 0x0 up to, and without, this one. -/
  fx0aScanEnd : Nat
  /-- `TIMER_WIDTH`: bits of each timer (R33, R34). -/
  timerWidth : Nat
  /-- `TICK_HZ` (R224): a host duty; no rule of the model reads it. -/
  tickHz : Nat
  /-- `IPS` (R231): a host duty; no rule of the model reads it. -/
  ips : Nat
  /-- `FX1E_POLICY` (R151, R152). -/
  fx1ePolicy : Fx1ePolicy
  /-- `FLAG_LAST` (R133): in 8XY4 to 8XYE with X = 0xF, VF ends holding the flag. -/
  flagLast : Bool
  /-- `KEY_INDEX_POLICY` (R190). -/
  keyIndexPolicy : KeyIndexPolicy
  /-- `RESET_MEMORY` (R26). -/
  resetMemory : ResetMemory
  deriving DecidableEq, Repr

/-- FREE VALUE (log entry 3). The byte that the oracle `Random()` of R16 answers to draw number `n`. It has no
body: nothing can evaluate it or prove a value of it, so what is proved holds for every sequence of bytes. -/
opaque Config.randomByte : Nat → Byte

/-- FREE VALUE (log entry 5). The byte at an address that `load` does not name, under `RESET_MEMORY = any` (R9);
this hardware takes `zero` and reads none of them. DESIGN CHOICE (log entry 20): the spec says "an oracle byte fixed at
load" and not whether two loads draw the same bytes; here every load has the same byte at an address. -/
opaque Config.resetByte : Nat → Byte

end Sys2Proof
end

