-- ==== Sys2Proof/Machine/Hardware.lean ====
section
/-! DEFINITION. This hardware's instance of the parameters of spec/00_scope.md R9: the font table of
spec/10_state.md R27 and the value the spec gives every other parameter. -/

namespace Sys2Proof.Machine

/-- Glyphs 0 to 7 of the font table (R27; log entry 6). -/
def fontLow : List Byte :=
  [0xF0, 0x90, 0x90, 0x90, 0xF0,
   0x20, 0x60, 0x20, 0x20, 0x70,
   0xF0, 0x10, 0xF0, 0x80, 0xF0,
   0xF0, 0x10, 0xF0, 0x10, 0xF0,
   0x90, 0x90, 0xF0, 0x10, 0x10,
   0xF0, 0x80, 0xF0, 0x10, 0xF0,
   0xF0, 0x80, 0xF0, 0x90, 0xF0,
   0xF0, 0x10, 0x20, 0x40, 0x40]

/-- Glyphs 8 to F of the font table (R27; log entry 6). -/
def fontHigh : List Byte :=
  [0xF0, 0x90, 0xF0, 0x90, 0xF0,
   0xF0, 0x90, 0xF0, 0x10, 0xF0,
   0xF0, 0x90, 0xF0, 0x90, 0x90,
   0xE0, 0x90, 0xE0, 0x90, 0xE0,
   0xF0, 0x80, 0x80, 0x80, 0xF0,
   0xE0, 0x90, 0x90, 0x90, 0xE0,
   0xF0, 0x80, 0xF0, 0x80, 0xF0,
   0xF0, 0x80, 0xF0, 0x80, 0x80]

/-- The value each parameter takes on this hardware (R9; log entry 5). State's types and every rule that depends on a
parameter read it here or from a `Config` given to them. -/
abbrev hardware : Config where
  memSize := 4096
  romBase := 0x200
  romMax := 3584
  fontBase := 0x000
  glyphBytes := 5
  fontBytes := 80
  font := fontLow ++ fontHigh
  numV := 16
  vWidth := 8
  iWidth := 16
  pcWidth := 16
  stackCapacity := 12
  stackEntryWidth := 16
  dispW := 64
  dispH := 32
  numKeys := 16
  fx0aScanEnd := 0xF
  timerWidth := 8
  tickHz := 60
  ips := 500
  fx1ePolicy := .wrap4096
  flagLast := true
  keyIndexPolicy := .fault
  resetMemory := .zero

end Sys2Proof.Machine
end

