-- ==== Sys2Proof/Machine/State.lean ====
section
/-! DEFINITION. The machine state of spec/10_state.md R20, as plain data, and the state after reset
(R43; spec/70_reset_and_hazards.md R250). The memory operations are in Machine/Memory.lean. -/

namespace Sys2Proof.Machine

/-- Memory as sparse data: (address, byte) pairs, addresses strictly rising, and no entry equal to what an
unlisted address reads as (`resetByteAt`, Machine/Memory.lean). R26. -/
abbrev Memory := List Host.Cell

/-- The framebuffer, a "boolean/bit array of 64×32 cells, row-major": 32 rows of 64 bits, bit `x` of row `y` being
cell `y*64 + x`, at column `x` and row `y`; a 1 is a lit cell (R35; log entry 1). -/
abbrev Display := Vector (BitVec hardware.dispW) hardware.dispH

/-- Every cell false (R35, R170). -/
def Display.clear : Display := Vector.replicate hardware.dispH 0

/-- `exec` (R37). -/
inductive RunState where
  | running
  | paused
  | halted
  deriving DecidableEq, Repr

/-- The execution errors of the taxonomy (R38; spec/60_exceptions.md R211). -/
inductive ExecError where
  /-- 2NNN with a full stack (R102). -/
  | stackOverflow
  /-- 00EE with an empty stack (R100). -/
  | stackUnderflow
  /-- A fetch, a transfer through `I` or a key index out of range (R55, R72, R190). -/
  | addressOutOfRange
  deriving DecidableEq, Repr

/-- The load errors of the taxonomy (R211). -/
inductive LoadError where
  /-- The ROM is longer than 3584 bytes (R250). -/
  | romTooLarge
  /-- "The byte source cannot be obtained" (R250). -/
  | romUnreadable
  deriving DecidableEq, Repr

/-- What the fault latch holds: the triple `(code, at, info)` of R38. -/
structure FaultRecord where
  /-- The error. -/
  code : ExecError
  /-- `at`: the address of the instruction that raised it. -/
  site : Word
  /-- `info`: the value it faulted on (R211). -/
  info : Word
  deriving DecidableEq, Repr

/-- The machine stops with a fault. NOBODY RAISES ONE: every error of this core is precise and leaves a next
state with the fault latch set (R215, R216; log entry 2). -/
inductive Fault where
  /-- An access to memory outside 0x000 to 0xFFF. Raised by nobody: R55 says that such an access is never performed,
  and every range is checked before the first access. Safe. -/
  | outsideMemory (address : Nat)
  deriving DecidableEq, Repr

/-- No meaning. Raised by host transactions only, never by `step` or `exec`. -/
inductive Refusal where
  /-- An instruction whose meaning is not written. Raised by nobody: every instruction has its meaning. Safe. -/
  | notModelled (mnemonic : String)
  /-- `set_key` with an index above 15: refused, not a transaction of the core (R228). Raised by
  `transact`. Safe. -/
  | noSuchKey (index : Nat)
  /-- A `load` that fails: no state is created (R218, R250). Raised by `transact`. Safe. -/
  | loadFailed (error : LoadError)
  deriving DecidableEq, Repr

/-- The Machine State (R20), with the model's own count of oracle draws. -/
structure State where
  /-- `memory` (R26). -/
  mem : Memory
  /-- `display` (R35). -/
  display : Display
  /-- `V[0..15]`; `V[15]` is VF (R21, R22). -/
  v : Vector (BitVec hardware.vWidth) hardware.numV
  /-- `I` (R28). -/
  i : BitVec hardware.iWidth
  /-- `pc` (R24). -/
  pc : BitVec hardware.pcWidth
  /-- `stack[0..11]` (R29). -/
  stack : Vector (BitVec hardware.stackEntryWidth) hardware.stackCapacity
  /-- `SP`: an integer 0..12, the entries in use (R30). -/
  sp : Fin (hardware.stackCapacity + 1)
  /-- `DT` (R33). -/
  dt : BitVec hardware.timerWidth
  /-- `ST` (R34). -/
  st : BitVec hardware.timerWidth
  /-- `key[0..15]`, true = pressed (R36). -/
  keys : Vector Bool hardware.numKeys
  /-- `exec` (R37). -/
  execState : RunState
  /-- `fault`, the fault latch (R38). -/
  fault : Option FaultRecord
  /-- `sound_active` (R39). -/
  soundActive : Bool
  /-- THE MODEL'S OWN, not the spec's: how many oracle bytes were drawn so far (R16; log entry 3). -/
  draws : Nat
  deriving DecidableEq, Repr

/-- The machine after reset: `load` of the empty ROM (R43, R250, R251; log entry 4). Memory lists nothing: an
unlisted address reads as its reset contents. -/
def State.reset : State where
  mem := []
  display := Display.clear
  v := Vector.replicate hardware.numV 0
  i := 0
  pc := BitVec.ofNat hardware.pcWidth hardware.romBase
  stack := Vector.replicate hardware.stackCapacity 0
  sp := 0
  dt := 0
  st := 0
  keys := Vector.replicate hardware.numKeys false
  execState := .running
  fault := none
  soundActive := false
  draws := 0

end Sys2Proof.Machine
end

