-- ==== Sys2Proof/Machine/Memory.lean ====
section
/-! DEFINITION. The one address space (spec/20_memory.md R50 to R60) as a canonical list of cells: what an
unlisted address reads as, reading and writing one byte, and ranges of bytes. Callers check the range
first (R14, R55): see `guardRange` in Machine/Ops.lean. -/

namespace Sys2Proof.Machine

/-- What `load` leaves at an address that no ROM byte covers, under a configuration: the font table, else by
`RESET_MEMORY` (R26, R27, R58). -/
def resetByteUnder (c : Config) (a : Nat) : Byte :=
  if c.fontBase ≤ a ∧ a < c.fontBase + c.fontBytes then c.font.getD (a - c.fontBase) 0
  else match c.resetMemory with
    | .zero => 0
    | .any => Config.resetByte a

/-- What an unlisted address reads as on this hardware: its reset contents (R26). -/
def resetByteAt (a : Nat) : Byte := resetByteUnder hardware a

/-- `MemRead(a, 1)` (R14). -/
def memRead : Memory → Nat → Byte
  | [], a => resetByteAt a
  | (k, b) :: rest, a => if k = a then b else memRead rest a

/-- The cells without those at address `a`. -/
def memErase : Memory → Nat → Memory
  | [], _ => []
  | (k, b) :: rest, a => if k = a then memErase rest a else (k, b) :: memErase rest a

/-- One cell more, before the first cell of a higher address. -/
def memInsert : Memory → Nat → Byte → Memory
  | [], a, b => [(a, b)]
  | (k, c) :: rest, a, b => if a < k then (a, b) :: (k, c) :: rest else (k, c) :: memInsert rest a b

/-- `MemWrite(a, 1, b)` (R14), keeping the canonical form: a byte equal to what an unlisted address reads as is
not listed. -/
def memWrite (m : Memory) (a : Nat) (b : Byte) : Memory :=
  if b = resetByteAt a then memErase m a else memInsert (memErase m a) a b

/-- Write bytes at consecutive rising addresses (R54). -/
def memWriteList (m : Memory) (a : Nat) : List Byte → Memory
  | [] => m
  | b :: rest => memWriteList (memWrite m a b) (a + 1) rest

/-- The addresses of the cells rise strictly. -/
def memRising (m : Memory) : Bool := decide (m.Pairwise (fun c d => c.1 < d.1))

/-- The canonical form: addresses strictly rising, each in 0x000 to 0xFFF ("no write ever occurs outside
[0, 4095]", R26), and no entry equal to what an unlisted address reads as. -/
def memWf (m : Memory) : Bool :=
  memRising m && m.all (fun c => decide (c.1 < hardware.memSize) && decide (c.2 ≠ resetByteAt c.1))

/-- The canonical form of a memory, under the name the interface asks for. -/
abbrev Memory.wf (m : Memory) : Bool := memWf m

end Sys2Proof.Machine
end

