-- ==== Sys2Proof/Machine/Ops.lean ====
section
/-! DEFINITION. The named operations over registers, memory, stack and program counter, and the one operation
that raises an error (spec/10_state.md, spec/20_memory.md, spec/60_exceptions.md R215, R216). A meaning
gets the state as it was before the step, with `pc` still `pc_fetch` (log entry 8); it advances `pc`
itself, and an error discards the step by starting again from that state. -/

namespace Sys2Proof.Machine

/-- What a step or a meaning answers. -/
abbrev Result := Host.Outcome State Fault Refusal

/-! ### Raising an error (R15, R215, R216) -/

/-- `RaiseInStep(E, at, info)`: `s` is the state before the step, so every write of the step is discarded and
`at` is its `pc`; only the latch is written. There is no return from an error (R217). -/
def State.raise (s : State) (e : ExecError) (info : Word) : State :=
  { s with fault := some ⟨e, s.pc, info⟩ }

/-- The step completes with the state given, or raises where there is none. -/
def State.orRaise (s : State) (e : ExecError) (info : Word) : Option State → Result
  | some t => .next t
  | none => .next (s.raise e info)

/-! ### Program counter (R24, R74, R108) -/

/-- The fetch stage's advance: `pc <- pc_fetch + 2` (R74). -/
def State.advance (s : State) : State := { s with pc := s.pc + 2 }

/-- `pc <- t`. -/
def State.jump (t : Word) (s : State) : State := { s with pc := t }

/-- "Skip next instruction": a further +2 where the condition holds (R108). -/
def State.skipIf (c : Bool) (s : State) : State := { s with pc := if c then s.pc + 2 else s.pc }

/-- FX0A's rewind: `pc <- pc - 2` (R194). -/
def State.rewind (s : State) : State := { s with pc := s.pc - 2 }

/-! ### General registers (R21) -/

/-- `V[x]`. -/
def State.reg (s : State) (x : Nibble) : Byte := s.v[x.toNat]'x.isLt

/-- `V[x] <- b`. -/
def State.setReg (x : Nibble) (b : Byte) (s : State) : State := { s with v := s.v.set x.toNat b x.isLt }

/-- VF is `V[15]` (R22). -/
abbrev vf : Nibble := 0xF

/-! ### Index register and timers (R28, R33, R34) -/

/-- `I <- w`. -/
def State.setIndex (w : Word) (s : State) : State := { s with i := w }

/-- `DT <- b`. -/
def State.setDelay (b : Byte) (s : State) : State := { s with dt := b }

/-- `ST <- b`. -/
def State.setSound (b : Byte) (s : State) : State := { s with st := b }

/-! ### Stack (R29 to R32) -/

/-- `Push(w)`: none where the stack is full, `SP = STACK_CAPACITY` (R31). A capacity above the one State holds
counts as that one (`fitsState`). -/
def State.push (c : Config) (w : Word) (s : State) : Option State :=
  if h : s.sp.val < c.stackCapacity ∧ s.sp.val < hardware.stackCapacity then
    some { s with stack := s.stack.set s.sp.val w h.2, sp := ⟨s.sp.val + 1, Nat.succ_lt_succ h.2⟩ }
  else none

/-- `Pop()`: the entry and the state with one entry fewer, or none where the stack is empty; the entry is not
cleared (R32). -/
def State.pop (s : State) : Option (Word × State) :=
  if h : s.sp.val = 0 then none
  else
    have hsp : s.sp.val - 1 < hardware.stackCapacity := by have := s.sp.isLt; omega
    some (s.stack[s.sp.val - 1], { s with sp := ⟨s.sp.val - 1, Nat.lt_succ_of_lt hsp⟩ })

/-! ### Memory (R14, R54 to R57) -/

/-- `MemRead(a, 1)`. -/
def State.byteAt (s : State) (a : Nat) : Byte := memRead s.mem a

/-- Write bytes at consecutive rising addresses from `a` (R54). -/
def State.storeBytes (a : Nat) (bs : List Byte) (s : State) : State := { s with mem := memWriteList s.mem a bs }

/-! ### Framebuffer, keypad, oracle (R16, R35, R36) -/

/-- `display <- d`. -/
def State.setDisplay (d : Display) (s : State) : State := { s with display := d }

/-- `key[k]`; false for a number that is no key. -/
def State.keyDown (s : State) (k : Nat) : Bool := s.keys.getD k false

/-- The byte that `Random()` answers to the next draw (R16; log entry 3). -/
def State.nextRandom (s : State) : Byte := Config.randomByte s.draws

/-- One oracle byte has been drawn (log entry 3). -/
def State.countDraw (s : State) : State := { s with draws := s.draws + 1 }

end Sys2Proof.Machine
end

