-- ==== Sys2Proof/Machine/Operands.lean ====
section
/-! DEFINITION. The operand forms: immediates (spec/30_encoding.md R81), ranges of memory through `I` with their
bounds check (spec/20_memory.md R55, R56; spec/42_index_memory.md R157), the registers V[0..X] (R155, R156),
key indexes (spec/44_keypad_timers.md R190), the key scan (R193, R194), decimal digits (R154), and the
arithmetic on `I` (R151 to R153). -/

namespace Sys2Proof.Machine

/-! ### Ranges through `I` -/

/-- A range of `count` bytes from `base` lies in memory; an empty range always does (R157, R178). -/
def rangeFits (c : Config) (base : Word) (count : Nat) : Bool :=
  decide (count = 0) || decide (base.toNat + count ≤ c.memSize)

/-- `max(I, 0x1000)`, 0x1000 being `MEM_SIZE`: the lowest address of the range above 0xFFF (R55, R157). -/
def firstOutside (c : Config) (base : Word) : Word :=
  if base.toNat < c.memSize then BitVec.ofNat 16 c.memSize else base

/-- The step completes with `t` where the range of `count` bytes from `I` lies in memory; else it raises
`AddressOutOfRange` before any access (R55, R157). -/
def State.guardRange (c : Config) (s : State) (count : Nat) (t : State) : Result :=
  s.orRaise .addressOutOfRange (firstOutside c s.i) (if rangeFits c s.i count then some t else none)

/-! ### Transfers of V[0..X] -/

/-- The bytes `V[0], ..., V[X]`, in order (R155). -/
def State.regsUpTo (s : State) (x : Nibble) : List Byte := s.v.toList.take (x.toNat + 1)

/-- `V[k] <- MemRead(I + k, 1)` for `k` in 0..X (R156). -/
def State.loadRegs (x : Nibble) (s : State) : State :=
  { s with v := Vector.ofFn (fun k : Fin hardware.numV => if k.val ≤ x.toNat then s.byteAt (s.i.toNat + k.val) else s.v[k]) }

/-- The hundreds, tens and ones digits of a byte (R154). -/
def decimalDigits (b : Byte) : List Byte :=
  [BitVec.ofNat 8 (b.toNat / 100), BitVec.ofNat 8 (b.toNat / 10 % 10), BitVec.ofNat 8 (b.toNat % 10)]

/-! ### Arithmetic on `I` and `pc` -/

/-- FX1E's update of `I` and, under one policy, of VF (R151, R152): `I` and `V[X]` are read first. -/
def State.addIndex (p : Fx1ePolicy) (x : Nibble) (s : State) : State :=
  let sum := s.i.toNat + (s.reg x).toNat
  match p with
  | .wrap4096 => s.setIndex (BitVec.ofNat 16 (sum % 4096))
  | .wrap65536 => s.setIndex (BitVec.ofNat 16 (sum % 65536))
  | .flag4096 => (s.setIndex (BitVec.ofNat 16 (sum % 4096))).setReg vf (if sum > 0xFFF then 1 else 0)

/-- FX29's glyph address: `V[X]` times the bytes of a glyph, exact (R153). -/
def glyphAddress (glyphBytes : Nat) (b : Byte) : Word := BitVec.ofNat 16 (b.toNat * glyphBytes)

/-- BNNN's target: the exact sum of two zero-extended values, not masked (R103). -/
def indexedTarget (b : Byte) (nnn : Address) : Word := zext16 b + zext16 nnn

/-! ### Keys -/

/-- The key that a register value names, or none where it names none: under `fault` a value of `NUM_KEYS` or more
(R190). -/
def keyIndex (c : Config) (b : Byte) : Option Nat :=
  match c.keyIndexPolicy with
  | .fault => if b.toNat < c.numKeys then some b.toNat else none
  | .mask => some (b.toNat % 16)

/-- The skip of EX9E and EXA1: by the state of the key that `V[X]` names, or `AddressOutOfRange(V[X])` (R190 to
R192). `wanted` is the state of the key that skips. -/
def State.keySkip (c : Config) (wanted : Bool) (x : Nibble) (s : State) : Result :=
  s.orRaise .addressOutOfRange (zext16 (s.reg x))
    ((keyIndex c (s.reg x)).map (fun k => s.advance.skipIf (s.keyDown k == wanted)))

/-- The lowest pressed key below `scanEnd` (R193, R194). -/
def State.firstKey (scanEnd : Nat) (s : State) : Option Nat := (List.range scanEnd).find? s.keyDown

end Sys2Proof.Machine
end

