-- ==== Sys2Proof/Machine/Cycle.lean ====
section
/-! DEFINITION. The parts of the step cycle around the instruction (spec/30_encoding.md R70 to R77): the gate, the
fetch with its bound, and what an unknown opcode does. -/

namespace Sys2Proof.Machine

/-- The gate of R70: the cycle runs only with no latched fault and `exec = Running`. -/
def State.gateOpen (s : State) : Bool := s.fault.isNone && decide (s.execState = .running)

/-- The fetch bound: `pc + 1` lies in memory, computed exactly (R56, R72). -/
def State.fetchFitsUnder (c : Config) (s : State) : Bool := decide (s.pc.toNat + 1 < c.memSize)

/-- The fetch bound under this hardware's `MEM_SIZE`. -/
def State.fetchFits (s : State) : Bool := s.fetchFitsUnder hardware

/-- The two bytes at `pc`, lower address first (R52, R72). -/
def State.fetchBytes (s : State) : List Byte := [s.byteAt s.pc.toNat, s.byteAt (s.pc.toNat + 1)]

/-- A fetch past the end of memory: `AddressOutOfRange(pc)` at `pc`, before any read (R72). -/
def execFetchOverrun (s : State) : Result := .next (s.raise .addressOutOfRange s.pc)

/-- An unknown opcode: a no-op, which writes nothing but the advance (R77). -/
def execUnknown (s : State) : Result := .next s.advance

end Sys2Proof.Machine
end

