-- ==== Sys2Proof/Machine/Flags.lean ====
section
/-! DEFINITION. The flag computations of the 8-bit ALU (spec/41_alu.md R127 to R135) and the one operation that
writes a result and its flag (R120, R133). VF is the only flag (R22). -/

namespace Sys2Proof.Machine

/-- A flag as VF holds it: 1 or 0 (R135). -/
def flagByte (c : Bool) : Byte := if c then 1 else 0

/-- Carry out of bit 7: the exact sum exceeds 255 (R127). -/
def carry (a b : Byte) : Bool := decide (a.toNat + b.toNat > 255)

/-- No borrow: the minuend is at least the subtrahend (R128, R130). -/
def noBorrow (minuend subtrahend : Byte) : Bool := decide (minuend.toNat ≥ subtrahend.toNat)

/-- The bit a right shift moves out: the old bit 0 (R129). -/
def lowBit (a : Byte) : Bool := a.getLsbD 0

/-- The bit a left shift moves out: the old bit 7 (R131). -/
def highBit (a : Byte) : Bool := a.getLsbD 7

/-- Write the result into `V[X]` and the flag into VF. Both were computed from the old registers (R120). With
`flagLast` the flag is the last write, so with X = 0xF VF ends holding the flag; without it the result is
(R133). -/
def State.setRegFlag (flagLast : Bool) (x : Nibble) (res : Byte) (flag : Bool) (s : State) : State :=
  if flagLast then (s.setReg x res).setReg vf (flagByte flag)
  else (s.setReg vf (flagByte flag)).setReg x res

end Sys2Proof.Machine
end

