-- ==== Sys2Proof/Machine/Alu.lean ====
section
/-! DEFINITION. Register loads and the 8-bit ALU (spec/41_alu.md R120 to R135): 6XNN, 7XNN, 8XY0 to 8XYE, CXNN.
Every meaning reads its operands from the state before the step and writes last (R120). A meaning that depends on a
parameter of R9 is written under a `Config` and taken at `hardware`. -/

namespace Sys2Proof.Machine

/-- 6XNN `LD Vx, nn` (R121). -/
def execLdVxNn (x : Nibble) (nn : Byte) (s : State) : Result := .next (s.advance.setReg x nn)

/-- 7XNN `ADD Vx, nn` (R122): modulo 256, no flag. -/
def execAddVxNn (x : Nibble) (nn : Byte) (s : State) : Result := .next (s.advance.setReg x (s.reg x + nn))

/-- 8XY0 `LD Vx, Vy` (R123). -/
def execLdVxVy (x y : Nibble) (s : State) : Result := .next (s.advance.setReg x (s.reg y))

/-- 8XY1 `OR Vx, Vy` (R124): VF is not reset. -/
def execOrVxVy (x y : Nibble) (s : State) : Result := .next (s.advance.setReg x (s.reg x ||| s.reg y))

/-- 8XY2 `AND Vx, Vy` (R125): VF is not reset. -/
def execAndVxVy (x y : Nibble) (s : State) : Result := .next (s.advance.setReg x (s.reg x &&& s.reg y))

/-- 8XY3 `XOR Vx, Vy` (R126): VF is not reset. -/
def execXorVxVy (x y : Nibble) (s : State) : Result := .next (s.advance.setReg x (s.reg x ^^^ s.reg y))

/-- 8XY4 `ADD Vx, Vy` (R127): VF = carry. -/
def execAddVxVyUnder (c : Config) (x y : Nibble) (s : State) : Result :=
  .next (s.advance.setRegFlag c.flagLast x (s.reg x + s.reg y) (carry (s.reg x) (s.reg y)))

/-- 8XY4 under this hardware's `FLAG_LAST` (R133). -/
def execAddVxVy (x y : Nibble) (s : State) : Result := execAddVxVyUnder hardware x y s

/-- 8XY5 `SUB Vx, Vy` (R128): VF = no borrow. -/
def execSubVxVyUnder (c : Config) (x y : Nibble) (s : State) : Result :=
  .next (s.advance.setRegFlag c.flagLast x (s.reg x - s.reg y) (noBorrow (s.reg x) (s.reg y)))

/-- 8XY5 under this hardware's `FLAG_LAST` (R133). -/
def execSubVxVy (x y : Nibble) (s : State) : Result := execSubVxVyUnder hardware x y s

/-- 8XY6 `SHR Vx` (R129): VF = the old bit 0 of `V[X]`; the `Y` field is ignored. -/
def execShrVxUnder (c : Config) (x _y : Nibble) (s : State) : Result :=
  .next (s.advance.setRegFlag c.flagLast x (s.reg x >>> 1) (lowBit (s.reg x)))

/-- 8XY6 under this hardware's `FLAG_LAST` (R133). -/
def execShrVx (x y : Nibble) (s : State) : Result := execShrVxUnder hardware x y s

/-- 8XY7 `SUBN Vx, Vy` (R130): VF = no borrow of `V[Y] - V[X]`. -/
def execSubnVxVyUnder (c : Config) (x y : Nibble) (s : State) : Result :=
  .next (s.advance.setRegFlag c.flagLast x (s.reg y - s.reg x) (noBorrow (s.reg y) (s.reg x)))

/-- 8XY7 under this hardware's `FLAG_LAST` (R133). -/
def execSubnVxVy (x y : Nibble) (s : State) : Result := execSubnVxVyUnder hardware x y s

/-- 8XYE `SHL Vx` (R131): VF = the old bit 7 of `V[X]`; the `Y` field is ignored. -/
def execShlVxUnder (c : Config) (x _y : Nibble) (s : State) : Result :=
  .next (s.advance.setRegFlag c.flagLast x (s.reg x <<< 1) (highBit (s.reg x)))

/-- 8XYE under this hardware's `FLAG_LAST` (R133). -/
def execShlVx (x y : Nibble) (s : State) : Result := execShlVxUnder hardware x y s

/-- CXNN `RND Vx, nn` (R132): one oracle byte per execution, masked by `NN`. -/
def execRndVxNn (x : Nibble) (nn : Byte) (s : State) : Result :=
  .next (s.advance.countDraw.setReg x (s.nextRandom &&& nn))

end Sys2Proof.Machine
end

