-- ==== Sys2Proof/Machine/Control.lean ====
section
/-! DEFINITION. Control transfer and skips (spec/40_control.md R100 to R109): 00EE, 1NNN, 2NNN, BNNN, 3XNN, 4XNN,
5XY0, 9XY0. -/

namespace Sys2Proof.Machine

/-- 00EE `RET` (R100): the popped value becomes `pc` as it is; `StackUnderflow(pc_fetch)` on an empty stack. -/
def execRet (s : State) : Result :=
  s.orRaise .stackUnderflow s.pc (s.advance.pop.map (fun r => r.2.jump r.1))

/-- 1NNN `JP nnn` (R101). -/
def execJp (nnn : Address) (s : State) : Result := .next (s.advance.jump (zext16 nnn))

/-- 2NNN `CALL nnn` (R102): pushes the advanced `pc`; `StackOverflow(pc_fetch)` on a full stack. -/
def execCallUnder (c : Config) (nnn : Address) (s : State) : Result :=
  s.orRaise .stackOverflow s.pc ((s.advance.push c s.advance.pc).map (State.jump (zext16 nnn)))

/-- 2NNN under this hardware's `STACK_CAPACITY` (R29). -/
def execCall (nnn : Address) (s : State) : Result := execCallUnder hardware nnn s

/-- BNNN `JP V0, nnn` (R103): always `V[0]`. -/
def execJpV0Nnn (nnn : Address) (s : State) : Result := .next (s.advance.jump (indexedTarget (s.reg 0) nnn))

/-- 3XNN `SE Vx, nn` (R104). -/
def execSeVxNn (x : Nibble) (nn : Byte) (s : State) : Result := .next (s.advance.skipIf (s.reg x == nn))

/-- 4XNN `SNE Vx, nn` (R105). -/
def execSneVxNn (x : Nibble) (nn : Byte) (s : State) : Result := .next (s.advance.skipIf (s.reg x != nn))

/-- 5XY0 `SE Vx, Vy` (R106). -/
def execSeVxVy (x y : Nibble) (s : State) : Result := .next (s.advance.skipIf (s.reg x == s.reg y))

/-- 9XY0 `SNE Vx, Vy` (R107). -/
def execSneVxVy (x y : Nibble) (s : State) : Result := .next (s.advance.skipIf (s.reg x != s.reg y))

end Sys2Proof.Machine
end

