-- ==== Sys2Proof/Machine/IndexMemory.lean ====
section
/-! DEFINITION. The index register and the transfers through it (spec/42_index_memory.md R150 to R157): ANNN, FX1E,
FX29, FX33, FX55, FX65. -/

namespace Sys2Proof.Machine

/-- ANNN `LD I, nnn` (R150). -/
def execLdINnn (nnn : Address) (s : State) : Result := .next (s.advance.setIndex (zext16 nnn))

/-- FX1E `ADD I, Vx` (R151, R152). -/
def execAddIVxUnder (c : Config) (x : Nibble) (s : State) : Result := .next (s.advance.addIndex c.fx1ePolicy x)

/-- FX1E under this hardware's `FX1E_POLICY` (R151). -/
def execAddIVx (x : Nibble) (s : State) : Result := execAddIVxUnder hardware x s

/-- FX29 `LD F, Vx` (R153): `V[X]` is not masked to a digit. -/
def execLdFVxUnder (c : Config) (x : Nibble) (s : State) : Result :=
  .next (s.advance.setIndex (glyphAddress c.glyphBytes (s.reg x)))

/-- FX29 under this hardware's `GLYPH_BYTES`. -/
def execLdFVx (x : Nibble) (s : State) : Result := execLdFVxUnder hardware x s

/-- FX33 `LD B, Vx` (R154): the three decimal digits at `I`, `I + 1`, `I + 2`. -/
def execLdBVxUnder (c : Config) (x : Nibble) (s : State) : Result :=
  s.guardRange c 3 (s.advance.storeBytes s.i.toNat (decimalDigits (s.reg x)))

/-- FX33 under this hardware's `MEM_SIZE`. -/
def execLdBVx (x : Nibble) (s : State) : Result := execLdBVxUnder hardware x s

/-- FX55 `LD [I], Vx` (R155): `V[0..X]` to `I .. I + X`; `I` unchanged. -/
def execLdMemVxUnder (c : Config) (x : Nibble) (s : State) : Result :=
  s.guardRange c (x.toNat + 1) (s.advance.storeBytes s.i.toNat (s.regsUpTo x))

/-- FX55 under this hardware's `MEM_SIZE`. -/
def execLdMemVx (x : Nibble) (s : State) : Result := execLdMemVxUnder hardware x s

/-- FX65 `LD Vx, [I]` (R156): `I .. I + X` to `V[0..X]`; `I` unchanged. -/
def execLdVxMemUnder (c : Config) (x : Nibble) (s : State) : Result :=
  s.guardRange c (x.toNat + 1) (s.advance.loadRegs x)

/-- FX65 under this hardware's `MEM_SIZE`. -/
def execLdVxMem (x : Nibble) (s : State) : Result := execLdVxMemUnder hardware x s

end Sys2Proof.Machine
end

