-- ==== Sys2Proof/Machine/KeypadTimers.lean ====
section
/-! DEFINITION. Keypad and timer instructions (spec/44_keypad_timers.md R190 to R199): EX9E, EXA1, FX0A, FX07, FX15,
FX18. -/

namespace Sys2Proof.Machine

/-- EX9E `SKP Vx` (R191): skip where the key is pressed. -/
def execSkpVxUnder (c : Config) (x : Nibble) (s : State) : Result := s.keySkip c true x

/-- EX9E under this hardware's `KEY_INDEX_POLICY`. -/
def execSkpVx (x : Nibble) (s : State) : Result := execSkpVxUnder hardware x s

/-- EXA1 `SKNP Vx` (R192): skip where the key is not pressed. -/
def execSknpVxUnder (c : Config) (x : Nibble) (s : State) : Result := s.keySkip c false x

/-- EXA1 under this hardware's `KEY_INDEX_POLICY`. -/
def execSknpVx (x : Nibble) (s : State) : Result := execSknpVxUnder hardware x s

/-- FX0A `LD Vx, K` (R193 to R195): the lowest pressed key of 0x0..0xE, or a rewind to `pc_fetch`. -/
def execLdVxKUnder (c : Config) (x : Nibble) (s : State) : Result :=
  match s.firstKey c.fx0aScanEnd with
  | some k => .next (s.advance.setReg x (BitVec.ofNat 8 k))
  | none => .next s.advance.rewind

/-- FX0A under this hardware's `FX0A_SCAN_END`. -/
def execLdVxK (x : Nibble) (s : State) : Result := execLdVxKUnder hardware x s

/-- FX07 `LD Vx, DT` (R196). -/
def execLdVxDt (x : Nibble) (s : State) : Result := .next (s.advance.setReg x s.dt)

/-- FX15 `LD DT, Vx` (R197). -/
def execLdDtVx (x : Nibble) (s : State) : Result := .next (s.advance.setDelay (s.reg x))

/-- FX18 `LD ST, Vx` (R198): `sound_active` does not change. -/
def execLdStVx (x : Nibble) (s : State) : Result := .next (s.advance.setSound (s.reg x))

end Sys2Proof.Machine
end

