-- ==== Sys2Proof/Machine/Screen.lean ====
section
/-! DEFINITION. The framebuffer controller (spec/43_display.md R170 to R178): 00E0 and DXYN, the XOR-blit with
clipping. -/

namespace Sys2Proof.Machine

/-- `disp[py*64 + px]`: the cell at column `px` and row `py` (R35). -/
def Display.lit (d : Display) (px py : Nat) : Bool := (d.getD py 0).getLsbD px

/-- `disp[py*64 + px] <- not disp[py*64 + px]` (R172). -/
def Display.toggle (d : Display) (px py : Nat) : Display :=
  d.setIfInBounds py (d.getD py 0 ^^^ BitVec.twoPow hardware.dispW px)

/-- The framebuffer and the collision flag while a sprite is drawn (R172). -/
structure Blit where
  display : Display
  collide : Bool
  deriving DecidableEq, Repr

/-- One pixel: clipped where its target lies outside 64x32 (R174), else toggled by a sprite bit of 1 (R173), with
a collision where the cell was lit (R175). -/
def drawPixel (c : Config) (px py : Nat) (bit : Bool) (d : Blit) : Blit :=
  if px ≥ c.dispW ∨ py ≥ c.dispH then d
  else if bit then ⟨d.display.toggle px py, d.collide || d.display.lit px py⟩
  else d

/-- One row: column `k` is bit `7 - k` of the sprite byte, drawn at `x0 + k` (R173). -/
def drawRow (c : Config) (x0 py : Nat) (b : Byte) (d : Blit) : Blit :=
  (List.range 8).foldl (fun d k => drawPixel c (x0 + k) py (b.getLsbD (7 - k)) d) d

/-- The rows: row `r` is the byte `memory[base + r]`, drawn at `y0 + r` (R172, R173). -/
def drawRows (c : Config) (m : Memory) (base x0 y0 n : Nat) (d : Blit) : Blit :=
  (List.range n).foldl (fun d r => drawRow c x0 (y0 + r) (memRead m (base + r)) d) d

/-- The start column: `V[X] mod DISP_W` (R176). -/
def State.startColumn (c : Config) (s : State) (x : Nibble) : Nat := (s.reg x).toNat % c.dispW

/-- The start row: `V[Y] mod DISP_H` (R176). -/
def State.startRow (c : Config) (s : State) (y : Nibble) : Nat := (s.reg y).toNat % c.dispH

/-- The blit of DXYN from the state before the step: all operands are read before VF is written (R172, R176). -/
def State.blit (c : Config) (s : State) (x y n : Nibble) : Blit :=
  drawRows c s.mem s.i.toNat (s.startColumn c x) (s.startRow c y) n.toNat ⟨s.display, false⟩

/-- 00E0 `CLS` (R170). -/
def execCls (s : State) : Result := .next (s.advance.setDisplay Display.clear)

/-- DXYN `DRW Vx, Vy, n` (R172 to R178): the range of all `N` rows is checked first (R177); VF is the collision
flag, written on every draw. -/
def execDrwVxVyNUnder (c : Config) (x y n : Nibble) (s : State) : Result :=
  s.guardRange c n.toNat
    ((s.advance.setDisplay (s.blit c x y n).display).setReg vf (flagByte (s.blit c x y n).collide))

/-- DXYN under this hardware's `MEM_SIZE`, `DISP_W` and `DISP_H`. -/
def execDrwVxVyN (x y n : Nibble) (s : State) : Result := execDrwVxVyNUnder hardware x y n s

end Sys2Proof.Machine
end

