-- ==== Sys2Proof/Machine/Step.lean ====
section
/-! DEFINITION. One step (spec/30_encoding.md R70 to R78, spec/60_exceptions.md R214): the gate, the fetch and its
bound, the decoder, the instruction or the no-op of an unknown opcode. Every outcome is a next state; the
host's `Ok` or `Err(code)` is read off the fault latch after the step (Machine/Transactions.lean). -/

namespace Sys2Proof.Machine

/-- `Step()` of R71. -/
def step (s : State) : Host.Outcome State Fault Refusal :=
  if s.gateOpen then
    if s.fetchFits then
      match decodeBytes s.fetchBytes with
      | .ok (i, _) => exec i s
      | .error _ => execUnknown s
    else execFetchOverrun s
  else .next s

/-- Where the next step can fetch: `pc` where both bytes at it lie in memory, else the reset vector. -/
def State.fetchSite (s : State) : Word := if s.fetchFits then s.pc else BitVec.ofNat hardware.pcWidth hardware.romBase

/-- `s` with the instruction whose bits are `w` where the next step fetches (log entry 4): the two bytes at the
fetch address, high byte first, with the gate open. From reset nothing but those two bytes changes. -/
def State.withFetchWord (s : State) (nbits w : Nat) : State :=
  { s with
    mem := memWriteList s.mem s.fetchSite.toNat [highByte (tableWord nbits w), lowByte (tableWord nbits w)]
    pc := s.fetchSite
    execState := .running
    fault := none }

end Sys2Proof.Machine
end

