-- ==== Sys2Proof/Machine/Transactions.lean ====
section
/-! DEFINITION. The host interface: every transaction of spec/60_exceptions.md R231, with `load`
(spec/70_reset_and_hazards.md R250 to R252), `tick_timers` (R225, R226), `set_key` (R228), the
execution-state transitions (R230) and the reads. Transactions come one at a time, each between two steps, in
any order and number (R57, R61, R231); a schedule is a list of them. -/

namespace Sys2Proof.Machine

/-- The numeric code of an execution error (R211). -/
def ExecError.number : ExecError → Nat
  | .stackOverflow => 3
  | .stackUnderflow => 4
  | .addressOutOfRange => 5

/-- The numeric code of a load error (R211). -/
def LoadError.number : LoadError → Nat
  | .romTooLarge => 1
  | .romUnreadable => 2

/-- A ROM source: its bytes, or none where "the byte source cannot be obtained" (R250). -/
abbrev RomSource := Option (List Byte)

/-- `load(rom_bytes)` (R250 to R252): a new Machine State, or a load error and no state. `draws` numbers the
session's first oracle byte (log entry 3). -/
def load (draws : Nat) (source : RomSource) : Except LoadError State :=
  match source with
  | none => .error .romUnreadable
  | some bytes =>
    if bytes.length > hardware.romMax then .error .romTooLarge
    else .ok { State.reset with mem := memWriteList [] hardware.romBase bytes, draws := draws }

/-- `load` under a configuration: the font, the ROM and the bytes `load` does not name are those of `c`, as is the
initial `pc` (R9, R26, R250). -/
def loadUnder (c : Config) (draws : Nat) (source : RomSource) : Except LoadError State :=
  match source with
  | none => .error .romUnreadable
  | some bytes =>
    if bytes.length > c.romMax then .error .romTooLarge
    else .ok { State.reset with
      mem := memWriteList (memWriteList [] 0 ((List.range c.memSize).map (resetByteUnder c))) c.romBase bytes
      pc := BitVec.ofNat hardware.pcWidth c.romBase
      draws := draws }

/-- A timer's tick: down by one, stopping at 0 (R222, R225). -/
def tickDown (t : Byte) : Byte := if t = 0 then 0 else t - 1

/-- `tick_timers` (R225): the sound signal is `ST > 0` before the decrement, and is latched. It is not gated
(R226). -/
def State.tickTimers (s : State) : State :=
  { s with dt := tickDown s.dt, st := tickDown s.st, soundActive := decide (s.st ≠ 0) }

/-- `set_key(index, pressed)` for an index in 0..15 (R228). -/
def State.setKey (index : Nat) (pressed : Bool) (s : State) : State :=
  { s with keys := s.keys.setIfInBounds index pressed }

/-- pause: Running to Paused; from any other state R230 names no transition (log entry 7). -/
def State.pause (s : State) : State :=
  { s with execState := if s.execState = .running then .paused else s.execState }

/-- resume: Paused to Running (R230; log entry 7). -/
def State.resume (s : State) : State :=
  { s with execState := if s.execState = .paused then .running else s.execState }

/-- quit: Running or Paused to Halted (R230); Halted stays Halted. -/
def State.quit (s : State) : State := { s with execState := .halted }

/-- What the host sends (R231). -/
inductive Transaction where
  | load (source : RomSource)
  | step
  | tickTimers
  | setKey (index : Nat) (pressed : Bool)
  | pause
  | resume
  | quit
  | readDisplay
  | readSound
  /-- The read of the fault latch (R42, R216). -/
  | readFault
  deriving DecidableEq, Repr

/-- What the host gets back (R231). -/
inductive Response where
  /-- A step's `Ok` (R78), or a successful `load`. -/
  | ok
  /-- A step's `Err(code)` (R78). -/
  | err (code : ExecError)
  /-- The Boolean of `tick_timers`, or of a read of the sound output. -/
  | sound (active : Bool)
  /-- The fault latch: none, or the record (code, at, info). -/
  | latch (fault : Option FaultRecord)
  /-- The 2048 cells. -/
  | cells (display : Display)
  /-- Nothing. -/
  | nothing
  deriving DecidableEq, Repr

/-- A step's result: `Err(code)` where the latch holds an error after the step, whether this step raised it or it
was latched before; else `Ok` (R70, R78, R216). -/
def State.stepResponse (s : State) : Response :=
  match s.fault with
  | some r => .err r.code
  | none => .ok

/-- One transaction: the state after it and what the host gets back. A refused one is no transaction of the core
(R218, R228). -/
def transact (t : Transaction) (s : State) : Host.Outcome (State × Response) Fault Refusal :=
  match t with
  | .load source =>
    match load s.draws source with
    | .ok s' => .next (s', .ok)
    | .error e => .refused (.loadFailed e)
  | .step =>
    match step s with
    | .next s' => .next (s', s'.stepResponse)
    | .fault r => .fault r
    | .refused r => .refused r
  | .tickTimers => .next (s.tickTimers, .sound s.tickTimers.soundActive)
  | .setKey index pressed =>
    if index < hardware.numKeys then .next (s.setKey index pressed, .nothing) else .refused (.noSuchKey index)
  | .pause => .next (s.pause, .nothing)
  | .resume => .next (s.resume, .nothing)
  | .quit => .next (s.quit, .nothing)
  | .readDisplay => .next (s, .cells s.display)
  | .readSound => .next (s, .sound s.soundActive)
  | .readFault => .next (s, .latch s.fault)

/-- The state after a transaction; a refused one changes nothing, and a failed load leaves the earlier session as
it was (R218, R228, R250). -/
def State.after (s : State) (t : Transaction) : State :=
  match transact t s with
  | .next (s', _) => s'
  | .fault _ => s
  | .refused _ => s

/-- The state after a schedule of transactions (R231). -/
def State.afterAll (s : State) (ts : List Transaction) : State := ts.foldl State.after s

end Sys2Proof.Machine
end

