-- ==== Sys2Proof/Safety.lean ====
section
/-! DEFINITION. The terms claims are stated in: the invariant of the state, what an instruction may write by the rules
of spec/, how two states may differ, and the stopped and waiting states of spec/60_exceptions.md R236. -/

namespace Sys2Proof.Machine

/-! ### The invariant -/

/-- What every run keeps: memory in its canonical form, so no cell outside 0x000 to 0xFFF (R26); `I` at most 0xFFF
(R28, under `wrap4096`); `pc` at most 0x10FE (R25); and no stack entry above 0x1000, the highest `pc_fetch + 2`
(R74, R102). That `SP` is at most 12 (R30) its type says. -/
abbrev State.Inv (s : State) : Prop :=
  memWf s.mem = true ∧ s.i.toNat < hardware.memSize ∧ s.pc.toNat ≤ 0x10FE ∧
    ∀ k : Fin hardware.stackCapacity, s.stack[k].toNat ≤ hardware.memSize

/-! ### How two states may differ -/

/-- They differ at most in the general registers and `pc`. -/
abbrev SameButRegs (s t : State) : Prop := t = { s with v := t.v, pc := t.pc }

/-- They differ at most in `pc`. -/
abbrev SameButPc (s t : State) : Prop := t = { s with pc := t.pc }

/-- They differ at most in `I` and `pc`. -/
abbrev SameButIndex (s t : State) : Prop := t = { s with i := t.i, pc := t.pc }

/-- They differ at most in memory and `pc`. -/
abbrev SameButMemory (s t : State) : Prop := t = { s with mem := t.mem, pc := t.pc }

/-- They differ at most in the display, the general registers and `pc`. -/
abbrev SameButDraw (s t : State) : Prop := t = { s with display := t.display, v := t.v, pc := t.pc }

/-- They differ at most in the stack, `SP` and `pc`. -/
abbrev SameButStack (s t : State) : Prop := t = { s with stack := t.stack, sp := t.sp, pc := t.pc }

/-- Every register but those named reads the same. -/
abbrev SameRegsBut (ks : List Nibble) (s t : State) : Prop := ∀ k, k ∉ ks → t.reg k = s.reg k

/-- They are equal but for stack entries at index `SP` and above, which no instruction can read (R32). -/
abbrev SameLiveStack (s t : State) : Prop :=
  t = { s with stack := t.stack } ∧ ∀ k : Fin hardware.stackCapacity, k.val < s.sp.val → t.stack[k] = s.stack[k]

/-- The cycle runs and the fetch is in range: no latched fault, Running, `pc` at most 0xFFE (R70, R72). -/
abbrev State.Ready (s : State) : Prop := s.fault = none ∧ s.execState = .running ∧ s.pc.toNat + 1 < hardware.memSize

/-- The opcode at `pc`: the byte at `pc` in bits 15..8, the byte at `pc + 1` in bits 7..0 (R72). -/
def State.opcodeAtPc (s : State) : Word := opcodeOf (s.byteAt s.pc.toNat) (s.byteAt (s.pc.toNat + 1))

end Sys2Proof.Machine

namespace Sys2Proof

/-- Every opcode that agrees with `pattern` on the bits of `mask` decodes to the instruction `f` builds from it
(R84). -/
abbrev DecodesAs (pattern mask : Word) (f : Word → Instr) : Prop :=
  ∀ op : Word, op &&& mask = pattern → decode op = .ok (f op)

/-! ### What an instruction may write, by the rules of spec/ -/

/-- The general registers an instruction writes (R22: `V[X]` by its destination, VF as a flag, `V[0..X]` by FX65). -/
def Instr.writesReg : Instr → Nibble → Bool
  | .ldVxNn x _, k => k == x
  | .addVxNn x _, k => k == x
  | .ldVxVy x _, k => k == x
  | .orVxVy x _, k => k == x
  | .andVxVy x _, k => k == x
  | .xorVxVy x _, k => k == x
  | .addVxVy x _, k => k == x || k == 0xF
  | .subVxVy x _, k => k == x || k == 0xF
  | .shrVx x _, k => k == x || k == 0xF
  | .subnVxVy x _, k => k == x || k == 0xF
  | .shlVx x _, k => k == x || k == 0xF
  | .rndVxNn x _, k => k == x
  | .drwVxVyN _ _ _, k => k == 0xF
  | .ldVxDt x, k => k == x
  | .ldVxK x, k => k == x
  | .ldVxMem x, k => decide (k.toNat ≤ x.toNat)
  | .cls, _ | .ret, _ | .jp _, _ | .call _, _ | .seVxNn _ _, _ | .sneVxNn _ _, _ | .seVxVy _ _, _ => false
  | .sneVxVy _ _, _ | .ldINnn _, _ | .jpV0Nnn _, _ | .skpVx _, _ | .sknpVx _, _ | .ldDtVx _, _ => false
  | .ldStVx _, _ | .addIVx _, _ | .ldFVx _, _ | .ldBVx _, _ | .ldMemVx _, _ => false

/-- How many bytes an instruction stores at `I` and up: FX33 three (R154), FX55 X + 1 (R155), no other any
(R51). -/
def Instr.storedBytes : Instr → Nat
  | .ldBVx _ => 3
  | .ldMemVx x => x.toNat + 1
  | .cls | .ret | .jp _ | .call _ | .seVxNn _ _ | .sneVxNn _ _ | .seVxVy _ _ | .ldVxNn _ _ | .addVxNn _ _ => 0
  | .ldVxVy _ _ | .orVxVy _ _ | .andVxVy _ _ | .xorVxVy _ _ | .addVxVy _ _ | .subVxVy _ _ | .shrVx _ _ => 0
  | .subnVxVy _ _ | .shlVx _ _ | .sneVxVy _ _ | .ldINnn _ | .jpV0Nnn _ | .rndVxNn _ _ | .drwVxVyN _ _ _ => 0
  | .skpVx _ | .sknpVx _ | .ldVxDt _ | .ldVxK _ | .ldDtVx _ | .ldStVx _ | .addIVx _ | .ldFVx _ | .ldVxMem _ => 0

/-- The instructions that can raise an error (R211, R212). -/
def Instr.mayRaise : Instr → Bool
  | .ret | .call _ | .drwVxVyN _ _ _ | .skpVx _ | .sknpVx _ | .ldBVx _ | .ldMemVx _ | .ldVxMem _ => true
  | .cls | .jp _ | .seVxNn _ _ | .sneVxNn _ _ | .seVxVy _ _ | .ldVxNn _ _ | .addVxNn _ _ | .ldVxVy _ _ => false
  | .orVxVy _ _ | .andVxVy _ _ | .xorVxVy _ _ | .addVxVy _ _ | .subVxVy _ _ | .shrVx _ _ | .subnVxVy _ _ => false
  | .shlVx _ _ | .sneVxVy _ _ | .ldINnn _ | .jpV0Nnn _ | .rndVxNn _ _ | .ldVxDt _ | .ldVxK _ | .ldDtVx _ => false
  | .ldStVx _ | .addIVx _ | .ldFVx _ => false

end Sys2Proof

namespace Sys2Proof.Machine

/-! ### The sprite of a draw (R172 to R176) -/

/-- Bit 7-c of row r of the sprite at `I` falls on column `px`, row `py`: the sprite bit that a draw of `n` rows
starting at column `x0`, row `y0` applies to that cell, false where the sprite does not reach it. -/
def State.spriteBit (s : State) (x0 y0 n px py : Nat) : Bool :=
  decide (x0 ≤ px ∧ px < x0 + 8 ∧ y0 ≤ py ∧ py < y0 + n) &&
    (s.byteAt (s.i.toNat + (py - y0))).getLsbD (7 - (px - x0))

/-! ### Stopped and waiting states (R236) -/

/-- The instruction at `pc`, where there is one. -/
def State.instrAtPc (s : State) : Option Instr :=
  if s.fetchFits then (decodeBytes s.fetchBytes).toOption.map Prod.fst else none

/-- Stopped good: no fault, and the word at `pc` is a jump to itself (R236). -/
def State.stoppedGood (s : State) : Bool :=
  s.fault.isNone && match s.instrAtPc with
    | some (.jp nnn) => decide (zext16 nnn = s.pc)
    | _ => false

/-- Stopped bad: a fault is latched (R236). -/
def State.stoppedBad (s : State) : Bool := s.fault.isSome

/-- Waiting: the word at `pc` is FX0A and no key 0x0..0xE is pressed (R236). -/
def State.waiting (s : State) : Bool :=
  match s.instrAtPc with
  | some (.ldVxK _) => (s.firstKey hardware.fx0aScanEnd).isNone
  | _ => false

/-- A safe run ends in no latched fault. -/
def State.safe (s : State) : Bool := !s.stoppedBad

end Sys2Proof.Machine
end

