-- ==== Sys2Proof/Certificates/Slice0/Obligations.lean ====
section
/-! DEFINITION. The statements about the machine, for the provers. Each docstring names the rules or sections of spec/ it
rests on. A statement that rests on one of the spec's own decisions (D<n> of spec/92_eei_decisions.md) or on a log entry
says so. Completion statements conclude that `exec` answers a next state. -/

open Sys2Proof Sys2Proof.Machine

/-! ### Encoding -/

/-- Decoding an encoded instruction gives it back, as a word and as the first two of any bytes (R75, R80, R84). -/
def Obligations.DecodeEncodeRoundTrip : Prop :=
  ∀ (i : Instr) (rest : List Byte), i.wellFormed = true →
    decode (encode i) = .ok i ∧ decodeBytes (encodeBytes i ++ rest) = .ok (i, rest)

/-- Each word has one meaning: encoding the instruction a word decodes to gives the word, so no bit is dropped (R75,
R80). The term of 8XY6 and 8XYE keeps the `Y` field, which the instruction ignores: that is the model's choice (log
entry 17), and without it the word could not be given back. -/
def Obligations.EncodeDecodeRoundTrip : Prop :=
  ∀ (op : Word) (i : Instr), decode op = .ok i → encode i = op

/-- The opcode table of R84 with the fields of R75: for each of the 34 rows, every word that agrees with the row's match
under its mask decodes to the row's instruction with its fields cut out of the word. -/
def Obligations.EachTableRowDecodes : Prop :=
  DecodesAs 0x00E0 0xFFFF (fun _ => .cls) ∧
  DecodesAs 0x00EE 0xFFFF (fun _ => .ret) ∧
  DecodesAs 0x1000 0xF000 (fun op => .jp (op.extractLsb' 0 12)) ∧
  DecodesAs 0x2000 0xF000 (fun op => .call (op.extractLsb' 0 12)) ∧
  DecodesAs 0x3000 0xF000 (fun op => .seVxNn (op.extractLsb' 8 4) (op.extractLsb' 0 8)) ∧
  DecodesAs 0x4000 0xF000 (fun op => .sneVxNn (op.extractLsb' 8 4) (op.extractLsb' 0 8)) ∧
  DecodesAs 0x5000 0xF00F (fun op => .seVxVy (op.extractLsb' 8 4) (op.extractLsb' 4 4)) ∧
  DecodesAs 0x6000 0xF000 (fun op => .ldVxNn (op.extractLsb' 8 4) (op.extractLsb' 0 8)) ∧
  DecodesAs 0x7000 0xF000 (fun op => .addVxNn (op.extractLsb' 8 4) (op.extractLsb' 0 8)) ∧
  DecodesAs 0x8000 0xF00F (fun op => .ldVxVy (op.extractLsb' 8 4) (op.extractLsb' 4 4)) ∧
  DecodesAs 0x8001 0xF00F (fun op => .orVxVy (op.extractLsb' 8 4) (op.extractLsb' 4 4)) ∧
  DecodesAs 0x8002 0xF00F (fun op => .andVxVy (op.extractLsb' 8 4) (op.extractLsb' 4 4)) ∧
  DecodesAs 0x8003 0xF00F (fun op => .xorVxVy (op.extractLsb' 8 4) (op.extractLsb' 4 4)) ∧
  DecodesAs 0x8004 0xF00F (fun op => .addVxVy (op.extractLsb' 8 4) (op.extractLsb' 4 4)) ∧
  DecodesAs 0x8005 0xF00F (fun op => .subVxVy (op.extractLsb' 8 4) (op.extractLsb' 4 4)) ∧
  DecodesAs 0x8006 0xF00F (fun op => .shrVx (op.extractLsb' 8 4) (op.extractLsb' 4 4)) ∧
  DecodesAs 0x8007 0xF00F (fun op => .subnVxVy (op.extractLsb' 8 4) (op.extractLsb' 4 4)) ∧
  DecodesAs 0x800E 0xF00F (fun op => .shlVx (op.extractLsb' 8 4) (op.extractLsb' 4 4)) ∧
  DecodesAs 0x9000 0xF00F (fun op => .sneVxVy (op.extractLsb' 8 4) (op.extractLsb' 4 4)) ∧
  DecodesAs 0xA000 0xF000 (fun op => .ldINnn (op.extractLsb' 0 12)) ∧
  DecodesAs 0xB000 0xF000 (fun op => .jpV0Nnn (op.extractLsb' 0 12)) ∧
  DecodesAs 0xC000 0xF000 (fun op => .rndVxNn (op.extractLsb' 8 4) (op.extractLsb' 0 8)) ∧
  DecodesAs 0xD000 0xF000
    (fun op => .drwVxVyN (op.extractLsb' 8 4) (op.extractLsb' 4 4) (op.extractLsb' 0 4)) ∧
  DecodesAs 0xE09E 0xF0FF (fun op => .skpVx (op.extractLsb' 8 4)) ∧
  DecodesAs 0xE0A1 0xF0FF (fun op => .sknpVx (op.extractLsb' 8 4)) ∧
  DecodesAs 0xF007 0xF0FF (fun op => .ldVxDt (op.extractLsb' 8 4)) ∧
  DecodesAs 0xF00A 0xF0FF (fun op => .ldVxK (op.extractLsb' 8 4)) ∧
  DecodesAs 0xF015 0xF0FF (fun op => .ldDtVx (op.extractLsb' 8 4)) ∧
  DecodesAs 0xF018 0xF0FF (fun op => .ldStVx (op.extractLsb' 8 4)) ∧
  DecodesAs 0xF01E 0xF0FF (fun op => .addIVx (op.extractLsb' 8 4)) ∧
  DecodesAs 0xF029 0xF0FF (fun op => .ldFVx (op.extractLsb' 8 4)) ∧
  DecodesAs 0xF033 0xF0FF (fun op => .ldBVx (op.extractLsb' 8 4)) ∧
  DecodesAs 0xF055 0xF0FF (fun op => .ldMemVx (op.extractLsb' 8 4)) ∧
  DecodesAs 0xF065 0xF0FF (fun op => .ldVxMem (op.extractLsb' 8 4))

/-- A word is an unknown opcode exactly where no row of the table selects it (R76, R85; decision D8, strict
decode). -/
def Obligations.UnknownExactlyWhereNoRowSelects : Prop :=
  ∀ op : Word, decode op = .error .unknownOpcode ↔ ∀ r ∈ opcodeTable, selects r op = false

/-- "Patterns do not overlap, so at most one instruction matches" (R76). -/
def Obligations.TableRowsDoNotOverlap : Prop :=
  ∀ (op : Word) (r r' : Word × Word), r ∈ opcodeTable → r' ∈ opcodeTable →
    selects r op = true → selects r' op = true → r = r'

/-- Seven words written out from the spec's encodings decode to the instructions they stand for, and 0x5121, which no
pattern matches, is an unknown opcode: decision D8, strict decode (sanity). -/
def Obligations.SpecExampleWordsDecode : Prop :=
  decode 0x00E0 = .ok .cls ∧ decode 0x1234 = .ok (.jp 0x234) ∧ decode 0x6A05 = .ok (.ldVxNn 0xA 0x05) ∧
  decode 0x8126 = .ok (.shrVx 1 2) ∧ decode 0xD015 = .ok (.drwVxVyN 0 1 5) ∧
  decode 0xE1A1 = .ok (.sknpVx 1) ∧ decode 0xF533 = .ok (.ldBVx 5) ∧ decode 0x5121 = .error .unknownOpcode

/-! ### The step cycle -/

/-- A step runs the decoded instruction: with the gate open and the fetch in range, where the big-endian word at `pc`
decodes to `i`, the step is `exec i` at that state; `exec` advances `pc` itself, and the step adds nothing around it
(R70 to R76; log entry 8). Parameters: `MEM_SIZE`, `PC_WIDTH`. -/
def Obligations.StepRunsDecodedInstruction : Prop :=
  hardware.memSize = 0x1000 ∧ hardware.pcWidth = 16 ∧
  ∀ (s : State) (i : Instr), s.Ready → decode s.opcodeAtPc = .ok i → i.wellFormed = true → step s = exec i s

/-- R77: an opcode that matches no pattern is a no-op, whose step writes nothing but the advance. Parameters:
`MEM_SIZE`, `PC_WIDTH`. -/
def Obligations.UnknownOpcodeStepOnlyAdvances : Prop :=
  hardware.memSize = 0x1000 ∧ hardware.pcWidth = 16 ∧
  ∀ s : State, s.Ready → (∀ r ∈ opcodeTable, selects r s.opcodeAtPc = false) →
    step s = .next { s with pc := s.pc + 2 }

/-- The gate (R70; decisions D11 and D12): with a latched fault the step changes nothing and returns `Err` of its code;
else, when not Running, it changes nothing and returns `Ok`. -/
def Obligations.GateHoldsTheStep : Prop :=
  (∀ (s : State) (r : FaultRecord), s.fault = some r →
    step s = .next s ∧ transact .step s = .next (s, .err r.code)) ∧
  (∀ s : State, s.fault = none → s.execState ≠ .running →
    step s = .next s ∧ transact .step s = .next (s, .ok))

/-- A fetch at 0xFFF or above latches `AddressOutOfRange` with `at` and `info` the `pc`, changes nothing else and
returns `Err` (R72, R211; the latch is decision D11, log entry 2). Parameters: `MEM_SIZE`, `PC_WIDTH`. -/
def Obligations.FetchOverrunLatches : Prop :=
  hardware.pcWidth = 16 ∧
  ∀ s : State, s.fault = none → s.execState = .running → hardware.memSize ≤ s.pc.toNat + 1 →
    step s = .next { s with fault := some ⟨.addressOutOfRange, s.pc, s.pc⟩ } ∧
    transact .step s =
      .next ({ s with fault := some ⟨.addressOutOfRange, s.pc, s.pc⟩ }, .err .addressOutOfRange)

/-- Nothing stops the machine: every instruction in every state, and every step, answers a next state; an error is a
next state too (R78, R215, R216; log entry 2). -/
def Obligations.EveryStepAnswersNext : Prop :=
  (∀ (i : Instr) (s : State), ∃ t, exec i s = .next t) ∧ ∀ s : State, ∃ t, step s = .next t

/-! ### Control transfer -/

/-- 1NNN (R101) sets `pc` to NNN, zero-extended, and writes nothing else; a jump to its own address leaves the whole
state as it was; after a target of `MEM_SIZE` - 1 or above, on this hardware 0xFFF alone, the next fetch raises
`AddressOutOfRange` of it, a next state with only the latch written (decision D11, log entry 2). Parameters:
`MEM_SIZE`, `PC_WIDTH`. -/
def Obligations.JumpResult : Prop :=
  hardware.pcWidth = 16 ∧ hardware.memSize = 0x1000 ∧
  DecodesAs 0x1000 0xF000 (fun op => .jp (op.extractLsb' 0 12)) ∧
  ∀ (nnn : Address) (s : State), ∃ t, exec (.jp nnn) s = .next t ∧ t.pc.toNat = nnn.toNat ∧ SameButPc s t ∧
    (nnn.toNat = s.pc.toNat → t = s) ∧
    (hardware.memSize ≤ nnn.toNat + 1 → nnn = 0xFFF) ∧
    (hardware.memSize ≤ nnn.toNat + 1 → s.fault = none → s.execState = .running →
      step t = .next { t with fault := some ⟨.addressOutOfRange, t.pc, t.pc⟩ })

/-- 2NNN (R102, R31; `STACK_CAPACITY`, decision D16): with room on the stack it pushes the address after the call and
jumps; on a full stack it latches `StackOverflow(pc_fetch)` and changes nothing else (the latch is decision D11, log
entry 2). Parameters: `PC_WIDTH`, `STACK_CAPACITY`, `STACK_ENTRY_WIDTH`. -/
def Obligations.CallResult : Prop :=
  hardware.pcWidth = 16 ∧ hardware.stackEntryWidth = 16 ∧
  ∀ (nnn : Address) (s : State),
    (s.sp.val < hardware.stackCapacity → ∃ t, exec (.call nnn) s = .next t ∧ t.pc.toNat = nnn.toNat ∧
      t.sp.val = s.sp.val + 1 ∧ SameButStack s t ∧
      ∀ k : Fin hardware.stackCapacity, t.stack[k] = if k.val = s.sp.val then s.pc + 2 else s.stack[k]) ∧
    (s.sp.val = hardware.stackCapacity → exec (.call nnn) s = .next { s with fault := some ⟨.stackOverflow, s.pc, s.pc⟩ })

/-- 00EE (R100, R32): with an entry in use it pops it into `pc` and leaves the entries as they are; on an empty stack
it latches `StackUnderflow(pc_fetch)` and changes nothing else (the latch is decision D11; the stale entry is D16).
Parameters: `PC_WIDTH`, `STACK_CAPACITY`, `STACK_ENTRY_WIDTH`. -/
def Obligations.ReturnResult : Prop :=
  hardware.pcWidth = 16 ∧ hardware.stackEntryWidth = 16 ∧
  ∀ s : State,
    (0 < s.sp.val → ∃ t, exec .ret s = .next t ∧
      (∀ k : Fin hardware.stackCapacity, k.val + 1 = s.sp.val → t.pc = s.stack[k]) ∧
      t.sp.val + 1 = s.sp.val ∧ t.stack = s.stack ∧ SameButStack s t) ∧
    (s.sp.val = 0 → exec .ret s = .next { s with fault := some ⟨.stackUnderflow, s.pc, s.pc⟩ })

/-- A return undoes a call (R100, R102, R109): after 2NNN with room on the stack, 00EE comes back to the instruction
after the call, with everything as before but the one stale stack entry, at the old `SP`, where the call wrote the
return address. Parameters: `PC_WIDTH`, `STACK_CAPACITY`, `STACK_ENTRY_WIDTH`. -/
def Obligations.ReturnUndoesCall : Prop :=
  hardware.pcWidth = 16 ∧ hardware.stackEntryWidth = 16 ∧
  ∀ (nnn : Address) (s : State), s.sp.val < hardware.stackCapacity →
    ∃ t, exec (.call nnn) s = .next t ∧ exec .ret t = .next { s with pc := s.pc + 2, stack := t.stack } ∧
      ∀ k : Fin hardware.stackCapacity, t.stack[k] = if k.val = s.sp.val then s.pc + 2 else s.stack[k]

/-- BNNN (R103; decision D3, no masking): `pc` becomes the exact sum of `V[0]` and NNN. Parameters: `NUM_V`,
`V_WIDTH`, `PC_WIDTH`. -/
def Obligations.IndexedJumpResult : Prop :=
  hardware.numV = 16 ∧ hardware.vWidth = 8 ∧ hardware.pcWidth = 16 ∧
  ∀ (nnn : Address) (s : State), ∃ t, exec (.jpV0Nnn nnn) s = .next t ∧
    t.pc.toNat = (s.reg 0).toNat + nnn.toNat ∧ SameButPc s t

/-- R104 and R105: 3XNN skips where `V[X]` equals NN, 4XNN where it does not; a skip is exactly two bytes more.
Parameters: `NUM_V`, `V_WIDTH`, `PC_WIDTH`. -/
def Obligations.ImmediateSkipResult : Prop :=
  hardware.numV = 16 ∧ hardware.vWidth = 8 ∧ hardware.pcWidth = 16 ∧
  DecodesAs 0x3000 0xF000 (fun op => .seVxNn (op.extractLsb' 8 4) (op.extractLsb' 0 8)) ∧
  DecodesAs 0x4000 0xF000 (fun op => .sneVxNn (op.extractLsb' 8 4) (op.extractLsb' 0 8)) ∧
  ∀ (x : Nibble) (nn : Byte) (s : State),
    exec (.seVxNn x nn) s = .next { s with pc := if s.reg x = nn then s.pc + 4 else s.pc + 2 } ∧
    exec (.sneVxNn x nn) s = .next { s with pc := if s.reg x = nn then s.pc + 2 else s.pc + 4 }

/-- 5XY0 and 9XY0 (R106, R107, R108): as the immediate skips, comparing two registers; X = Y always skips on 5XY0 and
never on 9XY0. Parameters: `NUM_V`, `PC_WIDTH`. -/
def Obligations.RegisterSkipResult : Prop :=
  hardware.numV = 16 ∧ hardware.pcWidth = 16 ∧
  ∀ (x y : Nibble) (s : State),
    exec (.seVxVy x y) s = .next { s with pc := if s.reg x = s.reg y then s.pc + 4 else s.pc + 2 } ∧
    exec (.sneVxVy x y) s = .next { s with pc := if s.reg x = s.reg y then s.pc + 2 else s.pc + 4 } ∧
    exec (.seVxVy x x) s = .next { s with pc := s.pc + 4 } ∧
    exec (.sneVxVy x x) s = .next { s with pc := s.pc + 2 }

/-! ### Register loads and the ALU -/

/-- R121: 6XNN loads NN into `V[X]` and writes no other register, VF included. Parameters: `NUM_V`, `V_WIDTH`,
`PC_WIDTH`. -/
def Obligations.LoadImmediateResult : Prop :=
  hardware.numV = 16 ∧ hardware.vWidth = 8 ∧ hardware.pcWidth = 16 ∧
  DecodesAs 0x6000 0xF000 (fun op => .ldVxNn (op.extractLsb' 8 4) (op.extractLsb' 0 8)) ∧
  ∀ (x : Nibble) (nn : Byte) (s : State), ∃ t, exec (.ldVxNn x nn) s = .next t ∧
    t.reg x = nn ∧ SameRegsBut [x] s t ∧ t.pc = s.pc + 2 ∧ SameButRegs s t

/-- R122: 7XNN adds NN to `V[X]` modulo 256 and writes no other register: no carry is recorded. Parameters: `NUM_V`,
`V_WIDTH`, `PC_WIDTH`. -/
def Obligations.AddImmediateResult : Prop :=
  hardware.numV = 16 ∧ hardware.vWidth = 8 ∧ hardware.pcWidth = 16 ∧
  DecodesAs 0x7000 0xF000 (fun op => .addVxNn (op.extractLsb' 8 4) (op.extractLsb' 0 8)) ∧
  ∀ (x : Nibble) (nn : Byte) (s : State), ∃ t, exec (.addVxNn x nn) s = .next t ∧
    (t.reg x).toNat = ((s.reg x).toNat + nn.toNat) % 256 ∧ SameRegsBut [x] s t ∧ t.pc = s.pc + 2 ∧ SameButRegs s t

/-- R123: 8XY0 copies `V[Y]` into `V[X]`. Parameters: `NUM_V`, `PC_WIDTH`. -/
def Obligations.CopyRegisterResult : Prop :=
  hardware.numV = 16 ∧ hardware.pcWidth = 16 ∧
  DecodesAs 0x8000 0xF00F (fun op => .ldVxVy (op.extractLsb' 8 4) (op.extractLsb' 4 4)) ∧
  ∀ (x y : Nibble) (s : State), ∃ t, exec (.ldVxVy x y) s = .next t ∧
    t.reg x = s.reg y ∧ SameRegsBut [x] s t ∧ t.pc = s.pc + 2 ∧ SameButRegs s t

/-- 8XY1, 8XY2, 8XY3 (R124 to R126): or, and, exclusive or, bit by bit; VF is not reset (decision D7), it changes only
as the destination. Parameters: `NUM_V`, `V_WIDTH`, `PC_WIDTH`. -/
def Obligations.LogicResult : Prop :=
  hardware.numV = 16 ∧ hardware.vWidth = 8 ∧ hardware.pcWidth = 16 ∧
  ∀ (x y : Nibble) (s : State),
    (∃ t, exec (.orVxVy x y) s = .next t ∧
      (∀ j < 8, (t.reg x).getLsbD j = ((s.reg x).getLsbD j || (s.reg y).getLsbD j)) ∧
      SameRegsBut [x] s t ∧ t.pc = s.pc + 2 ∧ SameButRegs s t) ∧
    (∃ t, exec (.andVxVy x y) s = .next t ∧
      (∀ j < 8, (t.reg x).getLsbD j = ((s.reg x).getLsbD j && (s.reg y).getLsbD j)) ∧
      SameRegsBut [x] s t ∧ t.pc = s.pc + 2 ∧ SameButRegs s t) ∧
    (∃ t, exec (.xorVxVy x y) s = .next t ∧
      (∀ j < 8, (t.reg x).getLsbD j = ((s.reg x).getLsbD j != (s.reg y).getLsbD j)) ∧
      SameRegsBut [x] s t ∧ t.pc = s.pc + 2 ∧ SameButRegs s t)

/-- 8XY4 (R127, R120, R133; decision D6, `FLAG_LAST` true, for X = 0xF): VF is the carry of the old values, `V[X]` the
sum modulo 256 where X is not 0xF. Parameters: `NUM_V`, `V_WIDTH`, `PC_WIDTH`, `FLAG_LAST`. -/
def Obligations.AddRegistersResult : Prop :=
  hardware.flagLast = true ∧ hardware.numV = 16 ∧ hardware.vWidth = 8 ∧ hardware.pcWidth = 16 ∧
  ∀ (x y : Nibble) (s : State), ∃ t, exec (.addVxVy x y) s = .next t ∧
    t.reg 0xF = (if (s.reg x).toNat + (s.reg y).toNat > 255 then 1 else 0) ∧
    (x ≠ 0xF → (t.reg x).toNat = ((s.reg x).toNat + (s.reg y).toNat) % 256) ∧
    SameRegsBut [x, 0xF] s t ∧ t.pc = s.pc + 2 ∧ SameButRegs s t

/-- 8XY5 and 8XY7 (R128, R130, R120, R133; decision D6, `FLAG_LAST` true, for X = 0xF): VF is "no borrow" of the old
values, `V[X]` the difference modulo 256 where X is not 0xF. Parameters: `NUM_V`, `V_WIDTH`, `PC_WIDTH`,
`FLAG_LAST`. -/
def Obligations.SubtractRegistersResult : Prop :=
  hardware.flagLast = true ∧ hardware.numV = 16 ∧ hardware.vWidth = 8 ∧ hardware.pcWidth = 16 ∧
  ∀ (x y : Nibble) (s : State),
    (∃ t, exec (.subVxVy x y) s = .next t ∧
      t.reg 0xF = (if (s.reg x).toNat ≥ (s.reg y).toNat then 1 else 0) ∧
      (x ≠ 0xF → (t.reg x).toNat = ((s.reg x).toNat + 256 - (s.reg y).toNat) % 256) ∧
      SameRegsBut [x, 0xF] s t ∧ t.pc = s.pc + 2 ∧ SameButRegs s t) ∧
    (∃ t, exec (.subnVxVy x y) s = .next t ∧
      t.reg 0xF = (if (s.reg y).toNat ≥ (s.reg x).toNat then 1 else 0) ∧
      (x ≠ 0xF → (t.reg x).toNat = ((s.reg y).toNat + 256 - (s.reg x).toNat) % 256) ∧
      SameRegsBut [x, 0xF] s t ∧ t.pc = s.pc + 2 ∧ SameButRegs s t)

/-- 8XY6 and 8XYE (R129, R131, R133; decision D6, `FLAG_LAST` true, for X = 0xF): `V[X]` shifts by one, VF is the bit
shifted out, and the `Y` field changes nothing. Parameters: `NUM_V`, `V_WIDTH`, `PC_WIDTH`, `FLAG_LAST`. -/
def Obligations.ShiftResult : Prop :=
  hardware.flagLast = true ∧ hardware.numV = 16 ∧ hardware.vWidth = 8 ∧ hardware.pcWidth = 16 ∧
  ∀ (x y : Nibble) (s : State),
    (∃ t, exec (.shrVx x y) s = .next t ∧
      (t.reg 0xF).toNat = (s.reg x).toNat % 2 ∧ (x ≠ 0xF → (t.reg x).toNat = (s.reg x).toNat / 2) ∧
      SameRegsBut [x, 0xF] s t ∧ t.pc = s.pc + 2 ∧ SameButRegs s t) ∧
    (∃ t, exec (.shlVx x y) s = .next t ∧
      (t.reg 0xF).toNat = (s.reg x).toNat / 128 ∧ (x ≠ 0xF → (t.reg x).toNat = 2 * (s.reg x).toNat % 256) ∧
      SameRegsBut [x, 0xF] s t ∧ t.pc = s.pc + 2 ∧ SameButRegs s t) ∧
    exec (.shrVx x y) s = exec (.shrVx x 0) s ∧ exec (.shlVx x y) s = exec (.shlVx x 0) s

/-- CXNN (R132, R16; decision D13): `V[X]` is an oracle byte masked by NN, whatever the oracle answers (a free value,
log entry 3); a bit that is 0 in NN is 0 in the result, and one draw is counted. Parameters: `NUM_V`, `V_WIDTH`,
`PC_WIDTH`. -/
def Obligations.RandomByteResult : Prop :=
  hardware.numV = 16 ∧ hardware.vWidth = 8 ∧ hardware.pcWidth = 16 ∧
  ∀ (x : Nibble) (nn : Byte) (s : State), ∃ t, exec (.rndVxNn x nn) s = .next t ∧
    (∀ j, nn.getLsbD j = false → (t.reg x).getLsbD j = false) ∧
    (nn = 0xFF → t.reg x = Config.randomByte s.draws) ∧ t.reg x = Config.randomByte s.draws &&& nn ∧
    SameRegsBut [x] s t ∧ t.pc = s.pc + 2 ∧ t.draws = s.draws + 1 ∧
    t = { s with v := t.v, pc := t.pc, draws := t.draws }

/-! ### The index register and the transfers through it -/

/-- R150: ANNN loads NNN into `I`, zero-extended. Parameters: `I_WIDTH`, `PC_WIDTH`. -/
def Obligations.LoadIndexResult : Prop :=
  hardware.iWidth = 16 ∧ hardware.pcWidth = 16 ∧
  DecodesAs 0xA000 0xF000 (fun op => .ldINnn (op.extractLsb' 0 12)) ∧
  ∀ (nnn : Address) (s : State), ∃ t, exec (.ldINnn nnn) s = .next t ∧
    t.i.toNat = nnn.toNat ∧ t.pc = s.pc + 2 ∧ SameButIndex s t

/-- FX1E (R151; decision D5, `FX1E_POLICY` `wrap4096`): `I` becomes `I + V[X]` modulo 4096, and VF is not written.
Parameters: `NUM_V`, `V_WIDTH`, `I_WIDTH`, `PC_WIDTH`, `FX1E_POLICY`. -/
def Obligations.AddIndexResult : Prop :=
  hardware.fx1ePolicy = .wrap4096 ∧ hardware.numV = 16 ∧ hardware.vWidth = 8 ∧ hardware.iWidth = 16 ∧
  hardware.pcWidth = 16 ∧
  ∀ (x : Nibble) (s : State), ∃ t, exec (.addIVx x) s = .next t ∧
    t.i.toNat = (s.i.toNat + (s.reg x).toNat) % 4096 ∧ t.pc = s.pc + 2 ∧ SameButIndex s t

/-- R153: FX29 sets `I` to `GLYPH_BYTES`, five, times `V[X]`, which is not masked to a digit. Parameters: `FONT_BASE`,
`GLYPH_BYTES`, `NUM_V`, `V_WIDTH`, `I_WIDTH`, `PC_WIDTH`. -/
def Obligations.GlyphAddressResult : Prop :=
  hardware.glyphBytes = 5 ∧ hardware.fontBase = 0 ∧ hardware.numV = 16 ∧ hardware.vWidth = 8 ∧ hardware.iWidth = 16 ∧
  hardware.pcWidth = 16 ∧
  DecodesAs 0xF029 0xF0FF (fun op => .ldFVx (op.extractLsb' 8 4)) ∧
  ∀ (x : Nibble) (s : State), ∃ t, exec (.ldFVx x) s = .next t ∧
    t.i.toNat = hardware.glyphBytes * (s.reg x).toNat ∧ t.pc = s.pc + 2 ∧ SameButIndex s t

/-- FX33 (R154; the bounds are decision D4): with `I` up to 0xFFD it stores the decimal digits of `V[X]`, hundreds at
`I`, tens at `I + 1`, ones at `I + 2`, and no other byte changes. Parameters: `MEM_SIZE`, `NUM_V`, `V_WIDTH`,
`I_WIDTH`, `PC_WIDTH`. -/
def Obligations.DecimalDigitsStored : Prop :=
  hardware.numV = 16 ∧ hardware.vWidth = 8 ∧ hardware.iWidth = 16 ∧ hardware.pcWidth = 16 ∧
  ∀ (x : Nibble) (s : State), s.i.toNat + 2 < hardware.memSize → ∃ t, exec (.ldBVx x) s = .next t ∧
    100 * (t.byteAt s.i.toNat).toNat + 10 * (t.byteAt (s.i.toNat + 1)).toNat + (t.byteAt (s.i.toNat + 2)).toNat =
      (s.reg x).toNat ∧
    (t.byteAt (s.i.toNat + 1)).toNat ≤ 9 ∧ (t.byteAt (s.i.toNat + 2)).toNat ≤ 9 ∧
    (∀ a, a < s.i.toNat ∨ s.i.toNat + 3 ≤ a → t.byteAt a = s.byteAt a) ∧
    t.pc = s.pc + 2 ∧ SameButMemory s t

/-- FX55 (R155; the bounds are decision D4): with `I + X` up to 0xFFF it stores `V[k]` at `I + k` for k in 0..X, no
other byte changes, and `I` is unchanged. Parameters: `MEM_SIZE`, `NUM_V`, `V_WIDTH`, `I_WIDTH`, `PC_WIDTH`. -/
def Obligations.RegistersStored : Prop :=
  hardware.numV = 16 ∧ hardware.vWidth = 8 ∧ hardware.iWidth = 16 ∧ hardware.pcWidth = 16 ∧
  ∀ (x : Nibble) (s : State), s.i.toNat + x.toNat < hardware.memSize → ∃ t, exec (.ldMemVx x) s = .next t ∧
    (∀ k : Nibble, k.toNat ≤ x.toNat → t.byteAt (s.i.toNat + k.toNat) = s.reg k) ∧
    (∀ a, a < s.i.toNat ∨ s.i.toNat + x.toNat + 1 ≤ a → t.byteAt a = s.byteAt a) ∧
    t.pc = s.pc + 2 ∧ SameButMemory s t

/-- FX65 (R156; the bounds are decision D4): with `I + X` up to 0xFFF it loads `V[k]` from `I + k` for k in 0..X, no
other register changes, and memory and `I` are unchanged. Parameters: `MEM_SIZE`, `NUM_V`, `V_WIDTH`, `I_WIDTH`,
`PC_WIDTH`. -/
def Obligations.RegistersLoaded : Prop :=
  hardware.numV = 16 ∧ hardware.vWidth = 8 ∧ hardware.iWidth = 16 ∧ hardware.pcWidth = 16 ∧
  ∀ (x : Nibble) (s : State), s.i.toNat + x.toNat < hardware.memSize → ∃ t, exec (.ldVxMem x) s = .next t ∧
    (∀ k : Nibble, k.toNat ≤ x.toNat → t.reg k = s.byteAt (s.i.toNat + k.toNat)) ∧
    (∀ k : Nibble, x.toNat < k.toNat → t.reg k = s.reg k) ∧
    t.pc = s.pc + 2 ∧ SameButRegs s t

/-- What FX55 stored, FX65 with the same X loads again, whatever the registers held in between (R155, R156).
Parameters: `MEM_SIZE`, `NUM_V`, `V_WIDTH`, `I_WIDTH`. -/
def Obligations.LoadAfterStoreRestoresRegisters : Prop :=
  hardware.numV = 16 ∧ hardware.vWidth = 8 ∧ hardware.iWidth = 16 ∧
  ∀ (x : Nibble) (s : State) (v : Vector (BitVec hardware.vWidth) hardware.numV), s.i.toNat + x.toNat < hardware.memSize →
    ∃ t, exec (.ldMemVx x) s = .next t ∧ ∃ u, exec (.ldVxMem x) { t with v := v } = .next u ∧
      ∀ k : Nibble, k.toNat ≤ x.toNat → u.reg k = s.reg k

/-- A transfer through `I` whose range passes 0xFFF latches `AddressOutOfRange` with info `max(I, 0x1000)` and changes
nothing else (R55, R157, R177; decisions D4, D11 and D14). Parameters: `MEM_SIZE`, `NUM_V`, `V_WIDTH`, `I_WIDTH`,
`PC_WIDTH`. -/
def Obligations.TransferOutOfRangeLatches : Prop :=
  hardware.numV = 16 ∧ hardware.vWidth = 8 ∧ hardware.iWidth = 16 ∧ hardware.pcWidth = 16 ∧
  ∀ s : State, ∃ info : Word, info.toNat = max s.i.toNat hardware.memSize ∧
    (hardware.memSize ≤ s.i.toNat + 2 → ∀ x, exec (.ldBVx x) s =
      .next { s with fault := some ⟨.addressOutOfRange, s.pc, info⟩ }) ∧
    (∀ x : Nibble, hardware.memSize ≤ s.i.toNat + x.toNat →
      exec (.ldMemVx x) s = .next { s with fault := some ⟨.addressOutOfRange, s.pc, info⟩ } ∧
      exec (.ldVxMem x) s = .next { s with fault := some ⟨.addressOutOfRange, s.pc, info⟩ }) ∧
    (∀ x y n : Nibble, 0 < n.toNat → hardware.memSize ≤ s.i.toNat + n.toNat - 1 →
      exec (.drwVxVyN x y n) s = .next { s with fault := some ⟨.addressOutOfRange, s.pc, info⟩ })

/-! ### The framebuffer -/

/-- R170: 00E0 makes every cell false and leaves the registers, VF included. Parameters: `PC_WIDTH`, `DISP_W`,
`DISP_H`. -/
def Obligations.ClearScreenResult : Prop :=
  hardware.dispW = 64 ∧ hardware.dispH = 32 ∧ hardware.pcWidth = 16 ∧
  DecodesAs 0x00E0 0xFFFF (fun _ => .cls) ∧
  ∀ s : State, ∃ t, exec .cls s = .next t ∧ (∀ px py, t.display.lit px py = false) ∧
    t = { s with display := t.display, pc := s.pc + 2 }

/-- DXYN (R172 to R176; the bounds are decisions D4 and D14): a draw whose rows lie in memory XORs into every cell of
the screen the sprite bit that falls on it, 7 - c of row r for the cell at (V[X] mod 64 + c, V[Y] mod 32 + r), and
clips the rest; VF becomes 1 where some cell was lit and got a sprite bit of 1, else 0, a clipped pixel never
counting. Parameters: `MEM_SIZE`, `NUM_V`, `V_WIDTH`, `I_WIDTH`, `PC_WIDTH`, `DISP_W`, `DISP_H`. -/
def Obligations.DrawXorsClippedSprite : Prop :=
  hardware.numV = 16 ∧ hardware.vWidth = 8 ∧ hardware.iWidth = 16 ∧ hardware.pcWidth = 16 ∧
  ∀ (x y n : Nibble) (s : State), n.toNat = 0 ∨ s.i.toNat + n.toNat ≤ hardware.memSize →
    ∃ t, exec (.drwVxVyN x y n) s = .next t ∧
      (∀ px py, px < hardware.dispW → py < hardware.dispH → t.display.lit px py = (s.display.lit px py !=
        s.spriteBit ((s.reg x).toNat % hardware.dispW) ((s.reg y).toNat % hardware.dispH) n.toNat px py)) ∧
      (t.reg 0xF = 1 ↔ ∃ px py, px < hardware.dispW ∧ py < hardware.dispH ∧ s.display.lit px py = true ∧
        s.spriteBit ((s.reg x).toNat % hardware.dispW) ((s.reg y).toNat % hardware.dispH) n.toNat px py = true) ∧
      (t.reg 0xF = 0 ∨ t.reg 0xF = 1) ∧
      SameRegsBut [0xF] s t ∧ t.pc = s.pc + 2 ∧ SameButDraw s t

/-- Drawing the same sprite twice at the same position restores the display; and where the display was clear and some
drawn sprite bit is 1 on the screen, VF is 1 after the second draw (R175; the coordinates are registers other than
VF). Parameters: `MEM_SIZE`, `NUM_V`, `V_WIDTH`, `I_WIDTH`, `DISP_W`, `DISP_H`. -/
def Obligations.DrawTwiceRestoresDisplay : Prop :=
  hardware.numV = 16 ∧ hardware.vWidth = 8 ∧ hardware.iWidth = 16 ∧
  ∀ (x y n : Nibble) (s : State), x ≠ 0xF → y ≠ 0xF → s.i.toNat + n.toNat ≤ hardware.memSize →
    ∃ t u, exec (.drwVxVyN x y n) s = .next t ∧ exec (.drwVxVyN x y n) t = .next u ∧
      u.display = s.display ∧
      ((∀ px py, s.display.lit px py = false) →
        (∃ px py, px < hardware.dispW ∧ py < hardware.dispH ∧
          s.spriteBit ((s.reg x).toNat % hardware.dispW) ((s.reg y).toNat % hardware.dispH) n.toNat px py = true) →
        u.reg 0xF = 1)

/-- DXY0 reads no memory, whatever `I` is, draws nothing and sets VF to 0 (R178). Parameters: `NUM_V`, `V_WIDTH`,
`PC_WIDTH`. -/
def Obligations.ZeroRowDrawOnlyClearsFlag : Prop :=
  hardware.numV = 16 ∧ hardware.vWidth = 8 ∧ hardware.pcWidth = 16 ∧
  ∀ (x y : Nibble) (s : State), ∃ t, exec (.drwVxVyN x y 0) s = .next t ∧
    t.reg 0xF = 0 ∧ SameRegsBut [0xF] s t ∧ t.pc = s.pc + 2 ∧ SameButRegs s t

/-! ### Keypad and timers -/

/-- EX9E and EXA1 (R190 to R192; decision D9, `KEY_INDEX_POLICY` `fault`): for a key in 0..15 they skip by its state;
for `V[X]` above 15 they latch `AddressOutOfRange(V[X])` and change nothing else. Parameters: `NUM_V`, `V_WIDTH`,
`PC_WIDTH`, `NUM_KEYS`, `KEY_INDEX_POLICY`. -/
def Obligations.KeySkipResult : Prop :=
  hardware.keyIndexPolicy = .fault ∧ hardware.numV = 16 ∧ hardware.vWidth = 8 ∧ hardware.pcWidth = 16 ∧
  hardware.numKeys = 16 ∧
  ∀ (x : Nibble) (s : State),
    ((s.reg x).toNat < hardware.numKeys →
      exec (.skpVx x) s = .next { s with pc := if s.keyDown (s.reg x).toNat then s.pc + 4 else s.pc + 2 } ∧
      exec (.sknpVx x) s = .next { s with pc := if s.keyDown (s.reg x).toNat then s.pc + 2 else s.pc + 4 }) ∧
    (hardware.numKeys ≤ (s.reg x).toNat → ∃ info : Word, info.toNat = (s.reg x).toNat ∧
      exec (.skpVx x) s = .next { s with fault := some ⟨.addressOutOfRange, s.pc, info⟩ } ∧
      exec (.sknpVx x) s = .next { s with fault := some ⟨.addressOutOfRange, s.pc, info⟩ })

/-- R194 and R193, with `FX0A_SCAN_END` 0xF: FX0A loads the lowest pressed key of 0x0..0xE; with none of them pressed,
key 0xF or not, the step leaves the whole state as it was. Parameters: `NUM_V`, `V_WIDTH`, `PC_WIDTH`, `NUM_KEYS`,
`FX0A_SCAN_END`. -/
def Obligations.WaitForKeyResult : Prop :=
  hardware.fx0aScanEnd = 0xF ∧ hardware.numV = 16 ∧ hardware.vWidth = 8 ∧ hardware.pcWidth = 16 ∧
  hardware.numKeys = 16 ∧
  DecodesAs 0xF00A 0xF0FF (fun op => .ldVxK (op.extractLsb' 8 4)) ∧
  ∀ (x : Nibble) (s : State),
    (∀ k < hardware.fx0aScanEnd, s.keyDown k = true → (∀ j < k, s.keyDown j = false) →
      ∃ t, exec (.ldVxK x) s = .next t ∧ (t.reg x).toNat = k ∧ SameRegsBut [x] s t ∧
        t.pc = s.pc + 2 ∧ SameButRegs s t) ∧
    ((∀ k < hardware.fx0aScanEnd, s.keyDown k = false) → exec (.ldVxK x) s = .next s)

/-- R195: with FX0A at `pc` and no key 0x0..0xE pressed, a step returns `Ok` and changes no state, however often it is
repeated; setting one of those keys and then stepping advances and stores that key's index in `V[X]`. Parameters:
`MEM_SIZE`, `NUM_V`, `V_WIDTH`, `PC_WIDTH`, `NUM_KEYS`, `FX0A_SCAN_END`. -/
def Obligations.WaitingStepRepeats : Prop :=
  hardware.fx0aScanEnd = 0xF ∧ hardware.numV = 16 ∧ hardware.vWidth = 8 ∧ hardware.pcWidth = 16 ∧
  hardware.numKeys = 16 ∧ hardware.memSize = 0x1000 ∧
  ∀ (x : Nibble) (s : State), s.Ready → decode s.opcodeAtPc = .ok (.ldVxK x) →
    (∀ k < hardware.fx0aScanEnd, s.keyDown k = false) →
    transact .step s = .next (s, .ok) ∧ (∀ n, s.afterAll (List.replicate n .step) = s) ∧
    ∀ k < hardware.fx0aScanEnd, ((s.afterAll [.setKey k true, .step]).reg x).toNat = k ∧
      (s.afterAll [.setKey k true, .step]).pc = s.pc + 2

/-- R196, R197 and R198: FX07 reads DT, FX15 writes DT, FX18 writes ST and does not touch the sound output, which the
next tick recomputes; the next tick decrements the value written, so ST = 1 sounds for exactly one tick. Parameters:
`NUM_V`, `V_WIDTH`, `PC_WIDTH`, `TIMER_WIDTH`. -/
def Obligations.TimerTransferResult : Prop :=
  hardware.numV = 16 ∧ hardware.vWidth = 8 ∧ hardware.pcWidth = 16 ∧ hardware.timerWidth = 8 ∧
  DecodesAs 0xF007 0xF0FF (fun op => .ldVxDt (op.extractLsb' 8 4)) ∧
  DecodesAs 0xF015 0xF0FF (fun op => .ldDtVx (op.extractLsb' 8 4)) ∧
  DecodesAs 0xF018 0xF0FF (fun op => .ldStVx (op.extractLsb' 8 4)) ∧
  ∀ (x : Nibble) (s : State),
    (∃ t, exec (.ldVxDt x) s = .next t ∧ t.reg x = s.dt ∧ SameRegsBut [x] s t ∧ t.pc = s.pc + 2 ∧
      SameButRegs s t) ∧
    (∃ t, exec (.ldDtVx x) s = .next t ∧ t = { s with dt := s.reg x, pc := s.pc + 2 } ∧
      (t.after .tickTimers).dt.toNat = (s.reg x).toNat - 1) ∧
    (∃ t, exec (.ldStVx x) s = .next t ∧ t = { s with st := s.reg x, pc := s.pc + 2 } ∧
      (t.after .tickTimers).soundActive = decide (0 < (s.reg x).toNat) ∧
      (t.afterAll [.tickTimers, .tickTimers]).soundActive = decide (1 < (s.reg x).toNat))

/-! ### Errors -/

/-- Errors are precise (R215, R216; decision D11, log entry 2): a step that changes the latch found it clear, and
changes nothing else; it records the address of the instruction; the step returns `Err` of the code, and the host may
read the whole record from the latch (log entry 19). Parameters: `NUM_V`, `V_WIDTH`, `I_WIDTH`, `PC_WIDTH`. -/
def Obligations.ErrorsArePrecise : Prop :=
  hardware.numV = 16 ∧ hardware.vWidth = 8 ∧ hardware.iWidth = 16 ∧ hardware.pcWidth = 16 ∧
  ∀ s t : State, step s = .next t → t.fault ≠ s.fault →
    s.fault = none ∧ ∃ (e : ExecError) (info : Word), t = { s with fault := some ⟨e, s.pc, info⟩ } ∧
      transact .step s = .next (t, .err e) ∧ transact .readFault t = .next (t, .latch (some ⟨e, s.pc, info⟩))

/-- There is no return from an error (R217; decision D11): with a fault latched, no schedule without a load changes the
latch, memory, display, registers, `I`, `pc`, stack or `SP`. -/
def Obligations.LatchedFaultIsFinal : Prop :=
  ∀ (ts : List Transaction) (s : State) (r : FaultRecord), s.fault = some r →
    (∀ source, Transaction.load source ∉ ts) →
    s.afterAll ts = { s with
      dt := (s.afterAll ts).dt, st := (s.afterAll ts).st, soundActive := (s.afterAll ts).soundActive,
      keys := (s.afterAll ts).keys, execState := (s.afterAll ts).execState }

/-- Only 2NNN, 00EE, DXYN, FX33, FX55, FX65, EX9E and EXA1 can raise; every other instruction leaves the latch
(R212). -/
def Obligations.OnlyListedInstructionsRaise : Prop :=
  ∀ (i : Instr) (s t : State), i.mayRaise = false → exec i s = .next t → t.fault = s.fault

/-! ### Frames, over all instructions -/

/-- A general register changes only by the instructions R22 lists: as `V[X]`, as the flag VF of 8XY4 to 8XYE and DXYN,
or as one of `V[0..X]` of FX65. That FX1E writes none, and so not VF, rests on `FX1E_POLICY` not being `flag4096`
(decision D5). Parameters: `NUM_V`, `FX1E_POLICY`. -/
def Obligations.RegistersFrame : Prop :=
  hardware.fx1ePolicy ≠ .flag4096 ∧ hardware.numV = 16 ∧
  ∀ (i : Instr) (s t : State) (k : Nibble), exec i s = .next t → i.writesReg k = false → t.reg k = s.reg k

/-- A byte of memory changes only where FX33 or FX55 stores it, from `I` up (R51, R54); every other instruction leaves
every byte. Parameters: `NUM_V`, `V_WIDTH`, `I_WIDTH`. -/
def Obligations.MemoryFrame : Prop :=
  hardware.numV = 16 ∧ hardware.vWidth = 8 ∧ hardware.iWidth = 16 ∧
  ∀ (i : Instr) (s t : State) (a : Nat), exec i s = .next t →
    (a < s.i.toNat ∨ s.i.toNat + i.storedBytes ≤ a) → t.byteAt a = s.byteAt a

/-- Only 00E0 and DXYN write the display (R171). -/
def Obligations.DisplayFrame : Prop :=
  ∀ (i : Instr) (s t : State), exec i s = .next t → i ≠ .cls → (∀ x y n, i ≠ .drwVxVyN x y n) →
    t.display = s.display

/-- Only 2NNN and 00EE touch the stack and `SP` (R29, R30). -/
def Obligations.StackFrame : Prop :=
  ∀ (i : Instr) (s t : State), exec i s = .next t → i ≠ .ret → (∀ nnn, i ≠ .call nnn) →
    t.stack = s.stack ∧ t.sp = s.sp

/-- Only ANNN, FX1E and FX29 write `I` (R28); only FX15 writes DT (R33) and only FX18 writes ST (R34): no instruction
decrements a timer (R199). -/
def Obligations.IndexAndTimerFrame : Prop :=
  ∀ (i : Instr) (s t : State), exec i s = .next t →
    ((∀ nnn, i ≠ .ldINnn nnn) → (∀ x, i ≠ .addIVx x) → (∀ x, i ≠ .ldFVx x) → t.i = s.i) ∧
    ((∀ x, i ≠ .ldDtVx x) → t.dt = s.dt) ∧ ((∀ x, i ≠ .ldStVx x) → t.st = s.st)

/-- No instruction writes the keypad, the execution state or the sound output (R36, R37, R39), and only CXNN draws an
oracle byte (R132; log entry 3). -/
def Obligations.HostSideFrame : Prop :=
  ∀ (i : Instr) (s t : State), exec i s = .next t →
    t.keys = s.keys ∧ t.execState = s.execState ∧ t.soundActive = s.soundActive ∧
    ((∀ x nn, i ≠ .rndVxNn x nn) → t.draws = s.draws)

/-! ### What instructions cannot learn -/

/-- No instruction reads ST, the sound output or the execution state (R34, R37, R39, R223): changed values of them
change nothing else after any instruction, and are kept but for FX18's write of ST. Parameters: `V_WIDTH`,
`TIMER_WIDTH`. -/
def Obligations.SoundAndRunStateAreUnread : Prop :=
  hardware.vWidth = 8 ∧ hardware.timerWidth = 8 ∧
  ∀ (i : Instr) (s t : State) (st : BitVec hardware.timerWidth) (b : Bool) (e : RunState), exec i s = .next t →
    exec i { s with st := st, soundActive := b, execState := e } =
      .next { t with st := (match i with | .ldStVx _ => t.st | _ => st), soundActive := b, execState := e }

/-- Stack entries at `SP` and above are stale and no instruction can read them (R32; decision D16): two states that
agree but for stale entries still do after any instruction. Parameters: `PC_WIDTH`, `STACK_CAPACITY`,
`STACK_ENTRY_WIDTH`. -/
def Obligations.StaleStackEntriesAreUnread : Prop :=
  hardware.pcWidth = 16 ∧ hardware.stackEntryWidth = 16 ∧ hardware.stackCapacity = 12 ∧
  ∀ (i : Instr) (s s' t : State), SameLiveStack s s' → exec i s = .next t →
    ∃ t', exec i s' = .next t' ∧ SameLiveStack t t'

/-! ### Invariants -/

/-- The reset state meets the invariant (sanity). Parameters: `MEM_SIZE`, `ROM_BASE`, `I_WIDTH`, `PC_WIDTH`,
`STACK_CAPACITY`, `STACK_ENTRY_WIDTH`. -/
def Obligations.ResetMeetsInvariant : Prop :=
  hardware.memSize = 0x1000 ∧ hardware.romBase = 0x200 ∧ hardware.iWidth = 16 ∧ hardware.pcWidth = 16 ∧
  hardware.stackEntryWidth = 16 ∧ hardware.stackCapacity = 12 ∧
  State.reset.Inv

/-- Every step keeps the invariant (R25, R26, R28): memory canonical and inside 0x000 to 0xFFF, `I` at most 0xFFF,
`pc` at most 0x10FE, stack entries at most 0x1000. The bounds rest on the parameters and on decision D5 (`FX1E_POLICY`
`wrap4096`). Parameters: `MEM_SIZE`, `GLYPH_BYTES`, `NUM_V`, `V_WIDTH`, `I_WIDTH`, `PC_WIDTH`, `STACK_CAPACITY`,
`STACK_ENTRY_WIDTH`, `FX1E_POLICY`. -/
def Obligations.StepKeepsInvariant : Prop :=
  hardware.fx1ePolicy = .wrap4096 ∧ hardware.memSize = 0x1000 ∧ hardware.glyphBytes = 5 ∧ hardware.numV = 16 ∧
  hardware.vWidth = 8 ∧ hardware.iWidth = 16 ∧ hardware.pcWidth = 16 ∧ hardware.stackEntryWidth = 16 ∧
  hardware.stackCapacity = 12 ∧
  ∀ s t : State, s.Inv → step s = .next t → t.Inv

/-- Every schedule of host transactions keeps the invariant, whatever the host loads, presses, ticks or steps (R57,
R61, R231). The bounds rest on the parameters (the ROM fits in memory) and on decision D5 (`FX1E_POLICY` `wrap4096`);
schedules as lists of transactions are the model's choice (log entry 9), as is the read of the latch among them (log
entry 19). Parameters: `MEM_SIZE`, `ROM_BASE`, `ROM_MAX`, `GLYPH_BYTES`, `NUM_V`, `V_WIDTH`, `I_WIDTH`, `PC_WIDTH`,
`STACK_CAPACITY`, `STACK_ENTRY_WIDTH`, `FX1E_POLICY`. -/
def Obligations.SchedulesKeepInvariant : Prop :=
  hardware.fx1ePolicy = .wrap4096 ∧ hardware.memSize = 0x1000 ∧ hardware.glyphBytes = 5 ∧ hardware.romBase = 0x200 ∧
  hardware.romMax = 3584 ∧ hardware.numV = 16 ∧ hardware.vWidth = 8 ∧ hardware.iWidth = 16 ∧ hardware.pcWidth = 16 ∧
  hardware.stackEntryWidth = 16 ∧ hardware.stackCapacity = 12 ∧ hardware.romBase + hardware.romMax ≤ hardware.memSize
  ∧
  ∀ (ts : List Transaction) (s : State), s.Inv → (s.afterAll ts).Inv

/-! ### Host transactions -/

/-- `tick_timers` (R225, R226; decision D15): each timer goes down by one and stops at 0, the sound signal is `ST > 0`
before the decrement, is latched and is returned; in every state. Parameters: `TIMER_WIDTH`. -/
def Obligations.TickTimersResult : Prop :=
  hardware.timerWidth = 8 ∧
  ∀ s : State, ∃ t, transact .tickTimers s = .next (t, .sound (decide (0 < s.st.toNat))) ∧
    t.dt.toNat = s.dt.toNat - 1 ∧ t.st.toNat = s.st.toNat - 1 ∧
    t.soundActive = decide (0 < s.st.toNat) ∧
    t = { s with dt := t.dt, st := t.st, soundActive := t.soundActive }

/-- `set_key`, pause, resume and quit (R228, R230; decisions D17 and D19): one key, or only `exec`, changes, by the
transitions listed; from Halted pause and resume change nothing (log entry 7); an index above 15 is refused (log entry
13). The reads of the display, the sound output and the latch answer them and change nothing (R42, R171, R231; log
entry 19). Parameters: `DISP_W`, `DISP_H`, `NUM_KEYS`. -/
def Obligations.HostInputsResult : Prop :=
  hardware.numKeys = 16 ∧ hardware.dispW = 64 ∧ hardware.dispH = 32 ∧
  (∀ (s : State) (k : Nat) (p : Bool), k < hardware.numKeys → ∃ t, transact (.setKey k p) s = .next (t, .nothing) ∧
    (∀ j, t.keyDown j = if j = k then p else s.keyDown j) ∧ t = { s with keys := t.keys }) ∧
  (∀ (s : State) (k : Nat) (p : Bool), hardware.numKeys ≤ k → transact (.setKey k p) s = .refused (.noSuchKey k)) ∧
  (∀ s : State, s.execState = .running → s.after .pause = { s with execState := .paused }) ∧
  (∀ s : State, s.execState = .paused → s.after .resume = { s with execState := .running }) ∧
  (∀ s : State, s.after .quit = { s with execState := .halted }) ∧
  (∀ s : State, s.execState = .halted → s.after .pause = s ∧ s.after .resume = s) ∧
  (∀ s : State, transact .readDisplay s = .next (s, .cells s.display) ∧
    transact .readSound s = .next (s, .sound s.soundActive) ∧ transact .readFault s = .next (s, .latch s.fault))

/-- R252: a ROM of more than `ROM_MAX`, 3584, bytes fails with `RomTooLarge`; one of exactly 3584 bytes loads and
occupies 0x200 to 0xFFF. Parameters: `MEM_SIZE`, `ROM_BASE`, `ROM_MAX`. -/
def Obligations.LoadSizeLimit : Prop :=
  hardware.romMax = 3584 ∧ hardware.romBase = 0x200 ∧ hardware.romBase + hardware.romMax = 0x1000 ∧
  ∀ (n : Nat) (bytes : List Byte),
    (hardware.romMax < bytes.length → load n (some bytes) = .error .romTooLarge) ∧
    (bytes.length = hardware.romMax → ∃ s, load n (some bytes) = .ok s ∧
      ∀ k (h : k < bytes.length), s.byteAt (hardware.romBase + k) = bytes[k] ∧ hardware.romBase + k < hardware.memSize)

/-- What a successful load leaves (R43, R250; decisions D10, `RESET_MEMORY` `zero`, D15 and D18): the font, the ROM,
zero elsewhere in memory, and every other element at its reset value; an unreadable source fails; and the model's
reset state is the load of the empty ROM, whatever the oracle's count (log entries 3 and 4). Parameters: `MEM_SIZE`,
`ROM_BASE`, `ROM_MAX`, `FONT_BASE`, `FONT_BYTES`, `FONT`, `NUM_V`, `V_WIDTH`, `I_WIDTH`, `PC_WIDTH`, `STACK_CAPACITY`,
`STACK_ENTRY_WIDTH`, `NUM_KEYS`, `TIMER_WIDTH`, `RESET_MEMORY`, `DISP_W`, `DISP_H`. -/
def Obligations.LoadLeavesResetState : Prop :=
  hardware.resetMemory = .zero ∧ hardware.memSize = 0x1000 ∧ hardware.numV = 16 ∧ hardware.vWidth = 8 ∧
  hardware.iWidth = 16 ∧ hardware.pcWidth = 16 ∧ hardware.stackEntryWidth = 16 ∧ hardware.timerWidth = 8 ∧
  hardware.numKeys = 16 ∧
  (∀ (n : Nat) (bytes : List Byte), bytes.length ≤ hardware.romMax → ∃ s, load n (some bytes) = .ok s ∧
    (∀ a < hardware.fontBytes, s.byteAt (hardware.fontBase + a) = hardware.font.getD a 0) ∧
    (∀ k (h : k < bytes.length), s.byteAt (hardware.romBase + k) = bytes[k]) ∧
    (∀ a, hardware.fontBase + hardware.fontBytes ≤ a →
      (a < hardware.romBase ∨ hardware.romBase + bytes.length ≤ a) → s.byteAt a = 0) ∧
    (∀ x, s.reg x = 0) ∧ s.i = 0 ∧ s.pc.toNat = hardware.romBase ∧
    (∀ k : Fin hardware.stackCapacity, s.stack[k] = 0) ∧ s.sp = 0 ∧
    s.dt = 0 ∧ s.st = 0 ∧ (∀ px py, s.display.lit px py = false) ∧ (∀ k, s.keyDown k = false) ∧
    s.execState = .running ∧ s.fault = none ∧ s.soundActive = false) ∧
  (∀ n, load n none = .error .romUnreadable) ∧ ∀ n, load n (some []) = .ok { State.reset with draws := n }
end

