-- ==== Sys2Proof/Laws/Decode.lean ====
section
/-! SUPPORT. The fields of an encoded opcode, format by format (R75, R80), and the bytes of a word (R52). -/

namespace Sys2Proof

/-! ### Format A -/

@[simp] theorem majorOf_formatA (m : Nibble) (nnn : Address) : majorOf (formatA m nnn) = m := by
  ext i hi
  interval_cases i <;> simp [majorOf, formatA]

@[simp] theorem nnnOf_formatA (m : Nibble) (nnn : Address) : nnnOf (formatA m nnn) = nnn := by
  ext i hi
  interval_cases i <;> simp [nnnOf, formatA]

/-! ### Format XNN (and XK) -/

@[simp] theorem majorOf_formatXNN (m x : Nibble) (nn : Byte) : majorOf (formatXNN m x nn) = m := by
  ext i hi
  interval_cases i <;> simp [majorOf, formatXNN]

@[simp] theorem xOf_formatXNN (m x : Nibble) (nn : Byte) : xOf (formatXNN m x nn) = x := by
  ext i hi
  interval_cases i <;> simp [xOf, formatXNN]

@[simp] theorem nnOf_formatXNN (m x : Nibble) (nn : Byte) : nnOf (formatXNN m x nn) = nn := by
  ext i hi
  interval_cases i <;> simp [nnOf, formatXNN]

/-! ### Format XYN (and XY) -/

@[simp] theorem majorOf_formatXYN (m x y n : Nibble) : majorOf (formatXYN m x y n) = m := by
  ext i hi
  interval_cases i <;> simp [majorOf, formatXYN]

@[simp] theorem xOf_formatXYN (m x y n : Nibble) : xOf (formatXYN m x y n) = x := by
  ext i hi
  interval_cases i <;> simp [xOf, formatXYN]

@[simp] theorem yOf_formatXYN (m x y n : Nibble) : yOf (formatXYN m x y n) = y := by
  ext i hi
  interval_cases i <;> simp [yOf, formatXYN]

@[simp] theorem nOf_formatXYN (m x y n : Nibble) : nOf (formatXYN m x y n) = n := by
  ext i hi
  interval_cases i <;> simp [nOf, formatXYN]

/-! ### Words rebuilt from their fields -/

theorem formatA_fields (op : Word) : formatA (majorOf op) (nnnOf op) = op := by
  ext i hi
  interval_cases i <;> simp [formatA, majorOf, nnnOf]

theorem formatXNN_fields (op : Word) : formatXNN (majorOf op) (xOf op) (nnOf op) = op := by
  ext i hi
  interval_cases i <;> simp [formatXNN, majorOf, xOf, nnOf]

theorem formatXYN_fields (op : Word) : formatXYN (majorOf op) (xOf op) (yOf op) (nOf op) = op := by
  ext i hi
  interval_cases i <;> simp [formatXYN, majorOf, xOf, yOf, nOf]

/-- The two bytes of a word, put together again, are the word (R52). -/
@[simp] theorem opcodeOf_bytes (op : Word) : opcodeOf (highByte op) (lowByte op) = op := by
  ext i hi
  interval_cases i <;> simp [opcodeOf, highByte, lowByte]

@[simp] theorem highByte_opcodeOf (hi lo : Byte) : highByte (opcodeOf hi lo) = hi := by
  ext i h
  interval_cases i <;> simp [opcodeOf, highByte]

@[simp] theorem lowByte_opcodeOf (hi lo : Byte) : lowByte (opcodeOf hi lo) = lo := by
  ext i h
  interval_cases i <;> simp [opcodeOf, lowByte]

/-! ### The decoder on bytes -/

/-- Two bytes are decoded as their word; the rest is handed on (R52, R79). -/
theorem decodeBytes_cons_cons (hi lo : Byte) (rest : List Byte) :
    decodeBytes (hi :: lo :: rest) = (decode (opcodeOf hi lo)).map (fun i => (i, rest)) := rfl

/-- A mask distributes over the fields of a word. -/
theorem extractLsb'_and (start len : Nat) (a b : Word) :
    (a &&& b).extractLsb' start len = a.extractLsb' start len &&& b.extractLsb' start len := by
  ext i hi
  simp

end Sys2Proof
end

