-- ==== Sys2Proof/Laws/Hardware.lean ====
section
/-! SUPPORT. The value of each size on this hardware (R9), for arithmetic that names the parameter. -/

namespace Sys2Proof.Machine

theorem hardware_memSize : hardware.memSize = 4096 := rfl
theorem hardware_romBase : hardware.romBase = 0x200 := rfl
theorem hardware_romMax : hardware.romMax = 3584 := rfl
theorem hardware_stackCapacity : hardware.stackCapacity = 12 := rfl
theorem hardware_dispW : hardware.dispW = 64 := rfl
theorem hardware_dispH : hardware.dispH = 32 := rfl
theorem hardware_numKeys : hardware.numKeys = 16 := rfl

/-- The whole ROM area, and no more, holds the largest ROM (R250, R252). -/
theorem romArea : hardware.romBase + hardware.romMax = hardware.memSize := rfl

/-- The font table has the size and the place R27 gives it. -/
theorem font_size : hardware.font.length = hardware.fontBytes ∧ hardware.fontBytes = 16 * hardware.glyphBytes := ⟨rfl, rfl⟩

/-- The widths the parameters give the registers are those of the word types. -/
theorem register_widths : BitVec hardware.vWidth = Byte ∧ BitVec hardware.timerWidth = Byte ∧
    BitVec hardware.iWidth = Word ∧ BitVec hardware.pcWidth = Word ∧ BitVec hardware.stackEntryWidth = Word :=
  ⟨rfl, rfl, rfl, rfl, rfl⟩

end Sys2Proof.Machine
end

