-- ==== Sys2Proof/Laws/Memory.lean ====
section
/-! SUPPORT. The laws of memory: a read after a write, a write of a list of bytes, and that every memory
operation keeps the canonical form. -/

namespace Sys2Proof.Machine

theorem memRead_erase_of_ne (m : Memory) {a a' : Nat} (h : a' ≠ a) : memRead (memErase m a) a' = memRead m a' := by
  induction m with
  | nil => rfl
  | cons c rest ih =>
    obtain ⟨k, b⟩ := c
    by_cases hk : k = a
    · have : k ≠ a' := fun e => h (e.symm.trans hk)
      simp [memErase, memRead, hk, ih, Ne.symm h]
    · simp only [memErase, hk, if_false, memRead, ih]

theorem memRead_erase_self (m : Memory) (a : Nat) : memRead (memErase m a) a = resetByteAt a := by
  induction m with
  | nil => rfl
  | cons c rest ih =>
    obtain ⟨k, b⟩ := c
    by_cases hk : k = a
    · simp [memErase, hk, ih]
    · simp [memErase, hk, memRead, ih]

theorem memErase_keys (m : Memory) (a : Nat) : ∀ c ∈ memErase m a, c.1 ≠ a := by
  induction m with
  | nil => simp [memErase]
  | cons c rest ih =>
    obtain ⟨k, b⟩ := c
    by_cases hk : k = a
    · simpa [memErase, hk] using ih
    · intro d hd
      simp only [memErase, hk, if_false, List.mem_cons] at hd
      rcases hd with rfl | hd
      · exact hk
      · exact ih d hd

theorem memRead_insert_self (m : Memory) (a : Nat) (b : Byte) (h : ∀ c ∈ m, c.1 ≠ a) :
    memRead (memInsert m a b) a = b := by
  induction m with
  | nil => simp [memInsert, memRead]
  | cons c rest ih =>
    obtain ⟨k, d⟩ := c
    have hk : k ≠ a := h (k, d) (by simp)
    have hrest : ∀ c ∈ rest, c.1 ≠ a := fun c hc => h c (by simp [hc])
    by_cases hlt : a < k
    · simp [memInsert, hlt, memRead]
    · simp [memInsert, hlt, memRead, hk, ih hrest]

theorem memRead_insert_of_ne (m : Memory) {a a' : Nat} (b : Byte) (h : a' ≠ a) :
    memRead (memInsert m a b) a' = memRead m a' := by
  induction m with
  | nil => simp [memInsert, memRead, Ne.symm h]
  | cons c rest ih =>
    obtain ⟨k, d⟩ := c
    by_cases hlt : a < k
    · simp [memInsert, hlt, memRead, Ne.symm h]
    · simp [memInsert, hlt, memRead, ih]

/-- A read after a write, in every memory: the byte written at its address, the old byte elsewhere. -/
theorem memRead_write (m : Memory) (a a' : Nat) (b : Byte) :
    memRead (memWrite m a b) a' = if a' = a then b else memRead m a' := by
  unfold memWrite
  by_cases hb : b = resetByteAt a
  · by_cases ha : a' = a
    · subst ha; simp [hb, memRead_erase_self]
    · simp [hb, ha, memRead_erase_of_ne m ha]
  · by_cases ha : a' = a
    · subst ha; simp [hb, memRead_insert_self _ _ _ (memErase_keys m a')]
    · simp [hb, ha, memRead_insert_of_ne _ b ha, memRead_erase_of_ne m ha]

/-- A read after a write of consecutive bytes, in every memory. -/
theorem memRead_writeList (m : Memory) (a a' : Nat) (bs : List Byte) :
    memRead (memWriteList m a bs) a' =
      if a ≤ a' ∧ a' < a + bs.length then bs.getD (a' - a) 0 else memRead m a' := by
  induction bs generalizing m a with
  | nil =>
    have : ¬ (a ≤ a' ∧ a' < a) := by omega
    simp [memWriteList, this]
  | cons b rest ih =>
    simp only [memWriteList, ih, memRead_write, List.length_cons]
    by_cases h1 : a + 1 ≤ a' ∧ a' < a + 1 + rest.length
    · have h2 : a ≤ a' ∧ a' < a + (rest.length + 1) := by omega
      obtain ⟨n, hn⟩ : ∃ n, a' - a = n + 1 := ⟨a' - a - 1, by omega⟩
      have : a' - (a + 1) = n := by omega
      rw [if_pos h1, if_pos h2, hn, this, List.getD_cons_succ]
    · rw [if_neg h1]
      by_cases ha : a' = a
      · subst ha; simp
      · have h2 : ¬ (a ≤ a' ∧ a' < a + (rest.length + 1)) := by omega
        rw [if_neg ha, if_neg h2]

/-- Inside the written range the read gives the byte written. -/
theorem memRead_writeList_inside (m : Memory) {a k : Nat} (bs : List Byte) (h : k < bs.length) :
    memRead (memWriteList m a bs) (a + k) = bs[k] := by
  have : a ≤ a + k ∧ a + k < a + bs.length := by omega
  rw [memRead_writeList, if_pos this, Nat.add_sub_cancel_left, List.getD_eq_getElem _ _ h]

/-- Outside the written range the read gives what it gave before. -/
theorem memRead_writeList_outside (m : Memory) {a a' : Nat} (bs : List Byte) (h : a' < a ∨ a + bs.length ≤ a') :
    memRead (memWriteList m a bs) a' = memRead m a' := by
  have : ¬ (a ≤ a' ∧ a' < a + bs.length) := by omega
  rw [memRead_writeList, if_neg this]

/-! ### The canonical form -/

theorem memWf_iff (m : Memory) :
    memWf m = true ↔ m.Pairwise (fun c d => c.1 < d.1) ∧ ∀ c ∈ m, c.1 < hardware.memSize ∧ c.2 ≠ resetByteAt c.1 := by
  simp [memWf, memRising]

theorem mem_of_mem_erase {m : Memory} {a : Nat} {c : Host.Cell} (h : c ∈ memErase m a) : c ∈ m := by
  induction m with
  | nil => simp [memErase] at h
  | cons d rest ih =>
    obtain ⟨k, b⟩ := d
    by_cases hk : k = a
    · simp only [memErase, hk, if_true] at h
      exact List.mem_cons_of_mem _ (ih h)
    · simp only [memErase, hk, if_false, List.mem_cons] at h
      rcases h with rfl | h
      · simp
      · exact List.mem_cons_of_mem _ (ih h)

theorem mem_of_mem_insert {m : Memory} {a : Nat} {b : Byte} {c : Host.Cell} (h : c ∈ memInsert m a b) :
    c = (a, b) ∨ c ∈ m := by
  induction m with
  | nil => simpa [memInsert] using h
  | cons d rest ih =>
    obtain ⟨k, e⟩ := d
    by_cases hlt : a < k
    · simpa [memInsert, hlt] using h
    · simp only [memInsert, hlt, if_false, List.mem_cons] at h
      rcases h with rfl | h
      · exact .inr (by simp)
      · rcases ih h with rfl | h
        · exact .inl rfl
        · exact .inr (List.mem_cons_of_mem _ h)

theorem memErase_rising {m : Memory} (a : Nat) (h : m.Pairwise (fun c d => c.1 < d.1)) :
    (memErase m a).Pairwise (fun c d => c.1 < d.1) := by
  induction m with
  | nil => simp [memErase]
  | cons d rest ih =>
    obtain ⟨k, b⟩ := d
    rw [List.pairwise_cons] at h
    by_cases hk : k = a
    · simpa [memErase, hk] using ih h.2
    · simp only [memErase, hk, if_false, List.pairwise_cons]
      exact ⟨fun c hc => h.1 c (mem_of_mem_erase hc), ih h.2⟩

theorem memInsert_rising {m : Memory} (a : Nat) (b : Byte) (h : m.Pairwise (fun c d => c.1 < d.1))
    (hne : ∀ c ∈ m, c.1 ≠ a) : (memInsert m a b).Pairwise (fun c d => c.1 < d.1) := by
  induction m with
  | nil => simp [memInsert]
  | cons d rest ih =>
    obtain ⟨k, e⟩ := d
    have hk : k ≠ a := hne (k, e) (by simp)
    have hrest := List.pairwise_cons.mp h
    by_cases hlt : a < k
    · simp only [memInsert, hlt, if_true, List.pairwise_cons, List.mem_cons, forall_eq_or_imp]
      exact ⟨⟨trivial, fun c hc => hlt.trans (hrest.1 c hc)⟩, hrest.1, hrest.2⟩
    · simp only [memInsert, hlt, if_false, List.pairwise_cons]
      refine ⟨fun c hc => ?_, ih hrest.2 (fun c hc => hne c (by simp [hc]))⟩
      rcases mem_of_mem_insert hc with rfl | hc
      · show k < a; omega
      · exact hrest.1 c hc

/-- A write inside memory keeps the canonical form. -/
theorem memWf_write {m : Memory} (h : memWf m = true) {a : Nat} (ha : a < hardware.memSize) (b : Byte) :
    memWf (memWrite m a b) = true := by
  rw [memWf_iff] at h ⊢
  unfold memWrite
  by_cases hb : b = resetByteAt a
  · rw [if_pos hb]
    exact ⟨memErase_rising a h.1, fun c hc => h.2 c (mem_of_mem_erase hc)⟩
  · rw [if_neg hb]
    refine ⟨memInsert_rising a b (memErase_rising a h.1) (memErase_keys m a), fun c hc => ?_⟩
    rcases mem_of_mem_insert hc with rfl | hc
    · exact ⟨ha, hb⟩
    · exact h.2 c (mem_of_mem_erase hc)

/-- A write of consecutive bytes inside memory keeps the canonical form. -/
theorem memWf_writeList {m : Memory} (h : memWf m = true) {a : Nat} (bs : List Byte) (ha : a + bs.length ≤ hardware.memSize) :
    memWf (memWriteList m a bs) = true := by
  induction bs generalizing m a with
  | nil => exact h
  | cons b rest ih =>
    rw [List.length_cons] at ha
    exact ih (memWf_write h (by omega) b) (by omega)

/-- Reset memory lists nothing and has the canonical form. -/
theorem memWf_reset : memWf State.reset.mem = true := rfl

end Sys2Proof.Machine
end

