-- ==== Sys2Proof/Laws/State.lean ====
section
/-! SUPPORT. One lemma per field per update of the state, and the same for the views `reg`, `byteAt` and
`keyDown`: no later proof unfolds a record update. -/

namespace Sys2Proof.Machine

/-! ### raise -/

@[simp] theorem State.raise_mem (s : State) (e : ExecError) (info : Word) : (s.raise e info).mem = s.mem := rfl
@[simp] theorem State.raise_display (s : State) (e : ExecError) (info : Word) : (s.raise e info).display = s.display := rfl
@[simp] theorem State.raise_v (s : State) (e : ExecError) (info : Word) : (s.raise e info).v = s.v := rfl
@[simp] theorem State.raise_i (s : State) (e : ExecError) (info : Word) : (s.raise e info).i = s.i := rfl
@[simp] theorem State.raise_pc (s : State) (e : ExecError) (info : Word) : (s.raise e info).pc = s.pc := rfl
@[simp] theorem State.raise_stack (s : State) (e : ExecError) (info : Word) : (s.raise e info).stack = s.stack := rfl
@[simp] theorem State.raise_sp (s : State) (e : ExecError) (info : Word) : (s.raise e info).sp = s.sp := rfl
@[simp] theorem State.raise_dt (s : State) (e : ExecError) (info : Word) : (s.raise e info).dt = s.dt := rfl
@[simp] theorem State.raise_st (s : State) (e : ExecError) (info : Word) : (s.raise e info).st = s.st := rfl
@[simp] theorem State.raise_keys (s : State) (e : ExecError) (info : Word) : (s.raise e info).keys = s.keys := rfl
@[simp] theorem State.raise_execState (s : State) (e : ExecError) (info : Word) : (s.raise e info).execState = s.execState := rfl
@[simp] theorem State.raise_fault (s : State) (e : ExecError) (info : Word) : (s.raise e info).fault = some ⟨e, s.pc, info⟩ := rfl
@[simp] theorem State.raise_soundActive (s : State) (e : ExecError) (info : Word) : (s.raise e info).soundActive = s.soundActive := rfl
@[simp] theorem State.raise_draws (s : State) (e : ExecError) (info : Word) : (s.raise e info).draws = s.draws := rfl
@[simp] theorem State.raise_reg (s : State) (e : ExecError) (info : Word) (k : Nibble) : (s.raise e info).reg k = s.reg k := rfl
@[simp] theorem State.raise_byteAt (s : State) (e : ExecError) (info : Word) (a : Nat) : (s.raise e info).byteAt a = s.byteAt a := rfl
@[simp] theorem State.raise_keyDown (s : State) (e : ExecError) (info : Word) (k : Nat) : (s.raise e info).keyDown k = s.keyDown k := rfl

/-! ### advance -/

@[simp] theorem State.advance_mem (s : State) : (s.advance).mem = s.mem := rfl
@[simp] theorem State.advance_display (s : State) : (s.advance).display = s.display := rfl
@[simp] theorem State.advance_v (s : State) : (s.advance).v = s.v := rfl
@[simp] theorem State.advance_i (s : State) : (s.advance).i = s.i := rfl
@[simp] theorem State.advance_pc (s : State) : (s.advance).pc = s.pc + 2 := rfl
@[simp] theorem State.advance_stack (s : State) : (s.advance).stack = s.stack := rfl
@[simp] theorem State.advance_sp (s : State) : (s.advance).sp = s.sp := rfl
@[simp] theorem State.advance_dt (s : State) : (s.advance).dt = s.dt := rfl
@[simp] theorem State.advance_st (s : State) : (s.advance).st = s.st := rfl
@[simp] theorem State.advance_keys (s : State) : (s.advance).keys = s.keys := rfl
@[simp] theorem State.advance_execState (s : State) : (s.advance).execState = s.execState := rfl
@[simp] theorem State.advance_fault (s : State) : (s.advance).fault = s.fault := rfl
@[simp] theorem State.advance_soundActive (s : State) : (s.advance).soundActive = s.soundActive := rfl
@[simp] theorem State.advance_draws (s : State) : (s.advance).draws = s.draws := rfl
@[simp] theorem State.advance_reg (s : State) (k : Nibble) : (s.advance).reg k = s.reg k := rfl
@[simp] theorem State.advance_byteAt (s : State) (a : Nat) : (s.advance).byteAt a = s.byteAt a := rfl
@[simp] theorem State.advance_keyDown (s : State) (k : Nat) : (s.advance).keyDown k = s.keyDown k := rfl

/-! ### jump -/

@[simp] theorem State.jump_mem (s : State) (t : Word) : (s.jump t).mem = s.mem := rfl
@[simp] theorem State.jump_display (s : State) (t : Word) : (s.jump t).display = s.display := rfl
@[simp] theorem State.jump_v (s : State) (t : Word) : (s.jump t).v = s.v := rfl
@[simp] theorem State.jump_i (s : State) (t : Word) : (s.jump t).i = s.i := rfl
@[simp] theorem State.jump_pc (s : State) (t : Word) : (s.jump t).pc = t := rfl
@[simp] theorem State.jump_stack (s : State) (t : Word) : (s.jump t).stack = s.stack := rfl
@[simp] theorem State.jump_sp (s : State) (t : Word) : (s.jump t).sp = s.sp := rfl
@[simp] theorem State.jump_dt (s : State) (t : Word) : (s.jump t).dt = s.dt := rfl
@[simp] theorem State.jump_st (s : State) (t : Word) : (s.jump t).st = s.st := rfl
@[simp] theorem State.jump_keys (s : State) (t : Word) : (s.jump t).keys = s.keys := rfl
@[simp] theorem State.jump_execState (s : State) (t : Word) : (s.jump t).execState = s.execState := rfl
@[simp] theorem State.jump_fault (s : State) (t : Word) : (s.jump t).fault = s.fault := rfl
@[simp] theorem State.jump_soundActive (s : State) (t : Word) : (s.jump t).soundActive = s.soundActive := rfl
@[simp] theorem State.jump_draws (s : State) (t : Word) : (s.jump t).draws = s.draws := rfl
@[simp] theorem State.jump_reg (s : State) (t : Word) (k : Nibble) : (s.jump t).reg k = s.reg k := rfl
@[simp] theorem State.jump_byteAt (s : State) (t : Word) (a : Nat) : (s.jump t).byteAt a = s.byteAt a := rfl
@[simp] theorem State.jump_keyDown (s : State) (t : Word) (k : Nat) : (s.jump t).keyDown k = s.keyDown k := rfl

/-! ### skipIf -/

@[simp] theorem State.skipIf_mem (s : State) (c : Bool) : (s.skipIf c).mem = s.mem := rfl
@[simp] theorem State.skipIf_display (s : State) (c : Bool) : (s.skipIf c).display = s.display := rfl
@[simp] theorem State.skipIf_v (s : State) (c : Bool) : (s.skipIf c).v = s.v := rfl
@[simp] theorem State.skipIf_i (s : State) (c : Bool) : (s.skipIf c).i = s.i := rfl
@[simp] theorem State.skipIf_pc (s : State) (c : Bool) : (s.skipIf c).pc = if c then s.pc + 2 else s.pc := rfl
@[simp] theorem State.skipIf_stack (s : State) (c : Bool) : (s.skipIf c).stack = s.stack := rfl
@[simp] theorem State.skipIf_sp (s : State) (c : Bool) : (s.skipIf c).sp = s.sp := rfl
@[simp] theorem State.skipIf_dt (s : State) (c : Bool) : (s.skipIf c).dt = s.dt := rfl
@[simp] theorem State.skipIf_st (s : State) (c : Bool) : (s.skipIf c).st = s.st := rfl
@[simp] theorem State.skipIf_keys (s : State) (c : Bool) : (s.skipIf c).keys = s.keys := rfl
@[simp] theorem State.skipIf_execState (s : State) (c : Bool) : (s.skipIf c).execState = s.execState := rfl
@[simp] theorem State.skipIf_fault (s : State) (c : Bool) : (s.skipIf c).fault = s.fault := rfl
@[simp] theorem State.skipIf_soundActive (s : State) (c : Bool) : (s.skipIf c).soundActive = s.soundActive := rfl
@[simp] theorem State.skipIf_draws (s : State) (c : Bool) : (s.skipIf c).draws = s.draws := rfl
@[simp] theorem State.skipIf_reg (s : State) (c : Bool) (k : Nibble) : (s.skipIf c).reg k = s.reg k := rfl
@[simp] theorem State.skipIf_byteAt (s : State) (c : Bool) (a : Nat) : (s.skipIf c).byteAt a = s.byteAt a := rfl
@[simp] theorem State.skipIf_keyDown (s : State) (c : Bool) (k : Nat) : (s.skipIf c).keyDown k = s.keyDown k := rfl

/-! ### rewind -/

@[simp] theorem State.rewind_mem (s : State) : (s.rewind).mem = s.mem := rfl
@[simp] theorem State.rewind_display (s : State) : (s.rewind).display = s.display := rfl
@[simp] theorem State.rewind_v (s : State) : (s.rewind).v = s.v := rfl
@[simp] theorem State.rewind_i (s : State) : (s.rewind).i = s.i := rfl
@[simp] theorem State.rewind_pc (s : State) : (s.rewind).pc = s.pc - 2 := rfl
@[simp] theorem State.rewind_stack (s : State) : (s.rewind).stack = s.stack := rfl
@[simp] theorem State.rewind_sp (s : State) : (s.rewind).sp = s.sp := rfl
@[simp] theorem State.rewind_dt (s : State) : (s.rewind).dt = s.dt := rfl
@[simp] theorem State.rewind_st (s : State) : (s.rewind).st = s.st := rfl
@[simp] theorem State.rewind_keys (s : State) : (s.rewind).keys = s.keys := rfl
@[simp] theorem State.rewind_execState (s : State) : (s.rewind).execState = s.execState := rfl
@[simp] theorem State.rewind_fault (s : State) : (s.rewind).fault = s.fault := rfl
@[simp] theorem State.rewind_soundActive (s : State) : (s.rewind).soundActive = s.soundActive := rfl
@[simp] theorem State.rewind_draws (s : State) : (s.rewind).draws = s.draws := rfl
@[simp] theorem State.rewind_reg (s : State) (k : Nibble) : (s.rewind).reg k = s.reg k := rfl
@[simp] theorem State.rewind_byteAt (s : State) (a : Nat) : (s.rewind).byteAt a = s.byteAt a := rfl
@[simp] theorem State.rewind_keyDown (s : State) (k : Nat) : (s.rewind).keyDown k = s.keyDown k := rfl

/-! ### setReg -/

@[simp] theorem State.setReg_mem (s : State) (x : Nibble) (b : Byte) : (s.setReg x b).mem = s.mem := rfl
@[simp] theorem State.setReg_display (s : State) (x : Nibble) (b : Byte) : (s.setReg x b).display = s.display := rfl
@[simp] theorem State.setReg_v (s : State) (x : Nibble) (b : Byte) : (s.setReg x b).v = s.v.set x.toNat b x.isLt := rfl
@[simp] theorem State.setReg_i (s : State) (x : Nibble) (b : Byte) : (s.setReg x b).i = s.i := rfl
@[simp] theorem State.setReg_pc (s : State) (x : Nibble) (b : Byte) : (s.setReg x b).pc = s.pc := rfl
@[simp] theorem State.setReg_stack (s : State) (x : Nibble) (b : Byte) : (s.setReg x b).stack = s.stack := rfl
@[simp] theorem State.setReg_sp (s : State) (x : Nibble) (b : Byte) : (s.setReg x b).sp = s.sp := rfl
@[simp] theorem State.setReg_dt (s : State) (x : Nibble) (b : Byte) : (s.setReg x b).dt = s.dt := rfl
@[simp] theorem State.setReg_st (s : State) (x : Nibble) (b : Byte) : (s.setReg x b).st = s.st := rfl
@[simp] theorem State.setReg_keys (s : State) (x : Nibble) (b : Byte) : (s.setReg x b).keys = s.keys := rfl
@[simp] theorem State.setReg_execState (s : State) (x : Nibble) (b : Byte) : (s.setReg x b).execState = s.execState := rfl
@[simp] theorem State.setReg_fault (s : State) (x : Nibble) (b : Byte) : (s.setReg x b).fault = s.fault := rfl
@[simp] theorem State.setReg_soundActive (s : State) (x : Nibble) (b : Byte) : (s.setReg x b).soundActive = s.soundActive := rfl
@[simp] theorem State.setReg_draws (s : State) (x : Nibble) (b : Byte) : (s.setReg x b).draws = s.draws := rfl
@[simp] theorem State.setReg_byteAt (s : State) (x : Nibble) (b : Byte) (a : Nat) : (s.setReg x b).byteAt a = s.byteAt a := rfl
@[simp] theorem State.setReg_keyDown (s : State) (x : Nibble) (b : Byte) (k : Nat) : (s.setReg x b).keyDown k = s.keyDown k := rfl

/-! ### setIndex -/

@[simp] theorem State.setIndex_mem (s : State) (w : Word) : (s.setIndex w).mem = s.mem := rfl
@[simp] theorem State.setIndex_display (s : State) (w : Word) : (s.setIndex w).display = s.display := rfl
@[simp] theorem State.setIndex_v (s : State) (w : Word) : (s.setIndex w).v = s.v := rfl
@[simp] theorem State.setIndex_i (s : State) (w : Word) : (s.setIndex w).i = w := rfl
@[simp] theorem State.setIndex_pc (s : State) (w : Word) : (s.setIndex w).pc = s.pc := rfl
@[simp] theorem State.setIndex_stack (s : State) (w : Word) : (s.setIndex w).stack = s.stack := rfl
@[simp] theorem State.setIndex_sp (s : State) (w : Word) : (s.setIndex w).sp = s.sp := rfl
@[simp] theorem State.setIndex_dt (s : State) (w : Word) : (s.setIndex w).dt = s.dt := rfl
@[simp] theorem State.setIndex_st (s : State) (w : Word) : (s.setIndex w).st = s.st := rfl
@[simp] theorem State.setIndex_keys (s : State) (w : Word) : (s.setIndex w).keys = s.keys := rfl
@[simp] theorem State.setIndex_execState (s : State) (w : Word) : (s.setIndex w).execState = s.execState := rfl
@[simp] theorem State.setIndex_fault (s : State) (w : Word) : (s.setIndex w).fault = s.fault := rfl
@[simp] theorem State.setIndex_soundActive (s : State) (w : Word) : (s.setIndex w).soundActive = s.soundActive := rfl
@[simp] theorem State.setIndex_draws (s : State) (w : Word) : (s.setIndex w).draws = s.draws := rfl
@[simp] theorem State.setIndex_reg (s : State) (w : Word) (k : Nibble) : (s.setIndex w).reg k = s.reg k := rfl
@[simp] theorem State.setIndex_byteAt (s : State) (w : Word) (a : Nat) : (s.setIndex w).byteAt a = s.byteAt a := rfl
@[simp] theorem State.setIndex_keyDown (s : State) (w : Word) (k : Nat) : (s.setIndex w).keyDown k = s.keyDown k := rfl

/-! ### setDelay -/

@[simp] theorem State.setDelay_mem (s : State) (b : Byte) : (s.setDelay b).mem = s.mem := rfl
@[simp] theorem State.setDelay_display (s : State) (b : Byte) : (s.setDelay b).display = s.display := rfl
@[simp] theorem State.setDelay_v (s : State) (b : Byte) : (s.setDelay b).v = s.v := rfl
@[simp] theorem State.setDelay_i (s : State) (b : Byte) : (s.setDelay b).i = s.i := rfl
@[simp] theorem State.setDelay_pc (s : State) (b : Byte) : (s.setDelay b).pc = s.pc := rfl
@[simp] theorem State.setDelay_stack (s : State) (b : Byte) : (s.setDelay b).stack = s.stack := rfl
@[simp] theorem State.setDelay_sp (s : State) (b : Byte) : (s.setDelay b).sp = s.sp := rfl
@[simp] theorem State.setDelay_dt (s : State) (b : Byte) : (s.setDelay b).dt = b := rfl
@[simp] theorem State.setDelay_st (s : State) (b : Byte) : (s.setDelay b).st = s.st := rfl
@[simp] theorem State.setDelay_keys (s : State) (b : Byte) : (s.setDelay b).keys = s.keys := rfl
@[simp] theorem State.setDelay_execState (s : State) (b : Byte) : (s.setDelay b).execState = s.execState := rfl
@[simp] theorem State.setDelay_fault (s : State) (b : Byte) : (s.setDelay b).fault = s.fault := rfl
@[simp] theorem State.setDelay_soundActive (s : State) (b : Byte) : (s.setDelay b).soundActive = s.soundActive := rfl
@[simp] theorem State.setDelay_draws (s : State) (b : Byte) : (s.setDelay b).draws = s.draws := rfl
@[simp] theorem State.setDelay_reg (s : State) (b : Byte) (k : Nibble) : (s.setDelay b).reg k = s.reg k := rfl
@[simp] theorem State.setDelay_byteAt (s : State) (b : Byte) (a : Nat) : (s.setDelay b).byteAt a = s.byteAt a := rfl
@[simp] theorem State.setDelay_keyDown (s : State) (b : Byte) (k : Nat) : (s.setDelay b).keyDown k = s.keyDown k := rfl

/-! ### setSound -/

@[simp] theorem State.setSound_mem (s : State) (b : Byte) : (s.setSound b).mem = s.mem := rfl
@[simp] theorem State.setSound_display (s : State) (b : Byte) : (s.setSound b).display = s.display := rfl
@[simp] theorem State.setSound_v (s : State) (b : Byte) : (s.setSound b).v = s.v := rfl
@[simp] theorem State.setSound_i (s : State) (b : Byte) : (s.setSound b).i = s.i := rfl
@[simp] theorem State.setSound_pc (s : State) (b : Byte) : (s.setSound b).pc = s.pc := rfl
@[simp] theorem State.setSound_stack (s : State) (b : Byte) : (s.setSound b).stack = s.stack := rfl
@[simp] theorem State.setSound_sp (s : State) (b : Byte) : (s.setSound b).sp = s.sp := rfl
@[simp] theorem State.setSound_dt (s : State) (b : Byte) : (s.setSound b).dt = s.dt := rfl
@[simp] theorem State.setSound_st (s : State) (b : Byte) : (s.setSound b).st = b := rfl
@[simp] theorem State.setSound_keys (s : State) (b : Byte) : (s.setSound b).keys = s.keys := rfl
@[simp] theorem State.setSound_execState (s : State) (b : Byte) : (s.setSound b).execState = s.execState := rfl
@[simp] theorem State.setSound_fault (s : State) (b : Byte) : (s.setSound b).fault = s.fault := rfl
@[simp] theorem State.setSound_soundActive (s : State) (b : Byte) : (s.setSound b).soundActive = s.soundActive := rfl
@[simp] theorem State.setSound_draws (s : State) (b : Byte) : (s.setSound b).draws = s.draws := rfl
@[simp] theorem State.setSound_reg (s : State) (b : Byte) (k : Nibble) : (s.setSound b).reg k = s.reg k := rfl
@[simp] theorem State.setSound_byteAt (s : State) (b : Byte) (a : Nat) : (s.setSound b).byteAt a = s.byteAt a := rfl
@[simp] theorem State.setSound_keyDown (s : State) (b : Byte) (k : Nat) : (s.setSound b).keyDown k = s.keyDown k := rfl

/-! ### storeBytes -/

@[simp] theorem State.storeBytes_mem (s : State) (a : Nat) (bs : List Byte) : (s.storeBytes a bs).mem = memWriteList s.mem a bs := rfl
@[simp] theorem State.storeBytes_display (s : State) (a : Nat) (bs : List Byte) : (s.storeBytes a bs).display = s.display := rfl
@[simp] theorem State.storeBytes_v (s : State) (a : Nat) (bs : List Byte) : (s.storeBytes a bs).v = s.v := rfl
@[simp] theorem State.storeBytes_i (s : State) (a : Nat) (bs : List Byte) : (s.storeBytes a bs).i = s.i := rfl
@[simp] theorem State.storeBytes_pc (s : State) (a : Nat) (bs : List Byte) : (s.storeBytes a bs).pc = s.pc := rfl
@[simp] theorem State.storeBytes_stack (s : State) (a : Nat) (bs : List Byte) : (s.storeBytes a bs).stack = s.stack := rfl
@[simp] theorem State.storeBytes_sp (s : State) (a : Nat) (bs : List Byte) : (s.storeBytes a bs).sp = s.sp := rfl
@[simp] theorem State.storeBytes_dt (s : State) (a : Nat) (bs : List Byte) : (s.storeBytes a bs).dt = s.dt := rfl
@[simp] theorem State.storeBytes_st (s : State) (a : Nat) (bs : List Byte) : (s.storeBytes a bs).st = s.st := rfl
@[simp] theorem State.storeBytes_keys (s : State) (a : Nat) (bs : List Byte) : (s.storeBytes a bs).keys = s.keys := rfl
@[simp] theorem State.storeBytes_execState (s : State) (a : Nat) (bs : List Byte) : (s.storeBytes a bs).execState = s.execState := rfl
@[simp] theorem State.storeBytes_fault (s : State) (a : Nat) (bs : List Byte) : (s.storeBytes a bs).fault = s.fault := rfl
@[simp] theorem State.storeBytes_soundActive (s : State) (a : Nat) (bs : List Byte) : (s.storeBytes a bs).soundActive = s.soundActive := rfl
@[simp] theorem State.storeBytes_draws (s : State) (a : Nat) (bs : List Byte) : (s.storeBytes a bs).draws = s.draws := rfl
@[simp] theorem State.storeBytes_reg (s : State) (a : Nat) (bs : List Byte) (k : Nibble) : (s.storeBytes a bs).reg k = s.reg k := rfl
@[simp] theorem State.storeBytes_keyDown (s : State) (a : Nat) (bs : List Byte) (k : Nat) : (s.storeBytes a bs).keyDown k = s.keyDown k := rfl

/-! ### setDisplay -/

@[simp] theorem State.setDisplay_mem (s : State) (d : Display) : (s.setDisplay d).mem = s.mem := rfl
@[simp] theorem State.setDisplay_display (s : State) (d : Display) : (s.setDisplay d).display = d := rfl
@[simp] theorem State.setDisplay_v (s : State) (d : Display) : (s.setDisplay d).v = s.v := rfl
@[simp] theorem State.setDisplay_i (s : State) (d : Display) : (s.setDisplay d).i = s.i := rfl
@[simp] theorem State.setDisplay_pc (s : State) (d : Display) : (s.setDisplay d).pc = s.pc := rfl
@[simp] theorem State.setDisplay_stack (s : State) (d : Display) : (s.setDisplay d).stack = s.stack := rfl
@[simp] theorem State.setDisplay_sp (s : State) (d : Display) : (s.setDisplay d).sp = s.sp := rfl
@[simp] theorem State.setDisplay_dt (s : State) (d : Display) : (s.setDisplay d).dt = s.dt := rfl
@[simp] theorem State.setDisplay_st (s : State) (d : Display) : (s.setDisplay d).st = s.st := rfl
@[simp] theorem State.setDisplay_keys (s : State) (d : Display) : (s.setDisplay d).keys = s.keys := rfl
@[simp] theorem State.setDisplay_execState (s : State) (d : Display) : (s.setDisplay d).execState = s.execState := rfl
@[simp] theorem State.setDisplay_fault (s : State) (d : Display) : (s.setDisplay d).fault = s.fault := rfl
@[simp] theorem State.setDisplay_soundActive (s : State) (d : Display) : (s.setDisplay d).soundActive = s.soundActive := rfl
@[simp] theorem State.setDisplay_draws (s : State) (d : Display) : (s.setDisplay d).draws = s.draws := rfl
@[simp] theorem State.setDisplay_reg (s : State) (d : Display) (k : Nibble) : (s.setDisplay d).reg k = s.reg k := rfl
@[simp] theorem State.setDisplay_byteAt (s : State) (d : Display) (a : Nat) : (s.setDisplay d).byteAt a = s.byteAt a := rfl
@[simp] theorem State.setDisplay_keyDown (s : State) (d : Display) (k : Nat) : (s.setDisplay d).keyDown k = s.keyDown k := rfl

/-! ### countDraw -/

@[simp] theorem State.countDraw_mem (s : State) : (s.countDraw).mem = s.mem := rfl
@[simp] theorem State.countDraw_display (s : State) : (s.countDraw).display = s.display := rfl
@[simp] theorem State.countDraw_v (s : State) : (s.countDraw).v = s.v := rfl
@[simp] theorem State.countDraw_i (s : State) : (s.countDraw).i = s.i := rfl
@[simp] theorem State.countDraw_pc (s : State) : (s.countDraw).pc = s.pc := rfl
@[simp] theorem State.countDraw_stack (s : State) : (s.countDraw).stack = s.stack := rfl
@[simp] theorem State.countDraw_sp (s : State) : (s.countDraw).sp = s.sp := rfl
@[simp] theorem State.countDraw_dt (s : State) : (s.countDraw).dt = s.dt := rfl
@[simp] theorem State.countDraw_st (s : State) : (s.countDraw).st = s.st := rfl
@[simp] theorem State.countDraw_keys (s : State) : (s.countDraw).keys = s.keys := rfl
@[simp] theorem State.countDraw_execState (s : State) : (s.countDraw).execState = s.execState := rfl
@[simp] theorem State.countDraw_fault (s : State) : (s.countDraw).fault = s.fault := rfl
@[simp] theorem State.countDraw_soundActive (s : State) : (s.countDraw).soundActive = s.soundActive := rfl
@[simp] theorem State.countDraw_draws (s : State) : (s.countDraw).draws = s.draws + 1 := rfl
@[simp] theorem State.countDraw_reg (s : State) (k : Nibble) : (s.countDraw).reg k = s.reg k := rfl
@[simp] theorem State.countDraw_byteAt (s : State) (a : Nat) : (s.countDraw).byteAt a = s.byteAt a := rfl
@[simp] theorem State.countDraw_keyDown (s : State) (k : Nat) : (s.countDraw).keyDown k = s.keyDown k := rfl

/-! ### loadRegs -/

@[simp] theorem State.loadRegs_mem (s : State) (x : Nibble) : (s.loadRegs x).mem = s.mem := by simp only [State.loadRegs]
@[simp] theorem State.loadRegs_display (s : State) (x : Nibble) : (s.loadRegs x).display = s.display := by simp only [State.loadRegs]
@[simp] theorem State.loadRegs_i (s : State) (x : Nibble) : (s.loadRegs x).i = s.i := by simp only [State.loadRegs]
@[simp] theorem State.loadRegs_pc (s : State) (x : Nibble) : (s.loadRegs x).pc = s.pc := by simp only [State.loadRegs]
@[simp] theorem State.loadRegs_stack (s : State) (x : Nibble) : (s.loadRegs x).stack = s.stack := by simp only [State.loadRegs]
@[simp] theorem State.loadRegs_sp (s : State) (x : Nibble) : (s.loadRegs x).sp = s.sp := by simp only [State.loadRegs]
@[simp] theorem State.loadRegs_dt (s : State) (x : Nibble) : (s.loadRegs x).dt = s.dt := by simp only [State.loadRegs]
@[simp] theorem State.loadRegs_st (s : State) (x : Nibble) : (s.loadRegs x).st = s.st := by simp only [State.loadRegs]
@[simp] theorem State.loadRegs_keys (s : State) (x : Nibble) : (s.loadRegs x).keys = s.keys := by simp only [State.loadRegs]
@[simp] theorem State.loadRegs_execState (s : State) (x : Nibble) : (s.loadRegs x).execState = s.execState := by simp only [State.loadRegs]
@[simp] theorem State.loadRegs_fault (s : State) (x : Nibble) : (s.loadRegs x).fault = s.fault := by simp only [State.loadRegs]
@[simp] theorem State.loadRegs_soundActive (s : State) (x : Nibble) : (s.loadRegs x).soundActive = s.soundActive := by simp only [State.loadRegs]
@[simp] theorem State.loadRegs_draws (s : State) (x : Nibble) : (s.loadRegs x).draws = s.draws := by simp only [State.loadRegs]
@[simp] theorem State.loadRegs_byteAt (s : State) (x : Nibble) (a : Nat) : (s.loadRegs x).byteAt a = s.byteAt a := by simp only [State.loadRegs, State.byteAt]
@[simp] theorem State.loadRegs_keyDown (s : State) (x : Nibble) (k : Nat) : (s.loadRegs x).keyDown k = s.keyDown k := by simp only [State.loadRegs, State.keyDown]

/-! ### setRegFlag -/

@[simp] theorem State.setRegFlag_mem (s : State) (l : Bool) (x : Nibble) (r : Byte) (f : Bool) : (s.setRegFlag l x r f).mem = s.mem := by cases l <;> rfl
@[simp] theorem State.setRegFlag_display (s : State) (l : Bool) (x : Nibble) (r : Byte) (f : Bool) : (s.setRegFlag l x r f).display = s.display := by cases l <;> rfl
@[simp] theorem State.setRegFlag_i (s : State) (l : Bool) (x : Nibble) (r : Byte) (f : Bool) : (s.setRegFlag l x r f).i = s.i := by cases l <;> rfl
@[simp] theorem State.setRegFlag_pc (s : State) (l : Bool) (x : Nibble) (r : Byte) (f : Bool) : (s.setRegFlag l x r f).pc = s.pc := by cases l <;> rfl
@[simp] theorem State.setRegFlag_stack (s : State) (l : Bool) (x : Nibble) (r : Byte) (f : Bool) : (s.setRegFlag l x r f).stack = s.stack := by cases l <;> rfl
@[simp] theorem State.setRegFlag_sp (s : State) (l : Bool) (x : Nibble) (r : Byte) (f : Bool) : (s.setRegFlag l x r f).sp = s.sp := by cases l <;> rfl
@[simp] theorem State.setRegFlag_dt (s : State) (l : Bool) (x : Nibble) (r : Byte) (f : Bool) : (s.setRegFlag l x r f).dt = s.dt := by cases l <;> rfl
@[simp] theorem State.setRegFlag_st (s : State) (l : Bool) (x : Nibble) (r : Byte) (f : Bool) : (s.setRegFlag l x r f).st = s.st := by cases l <;> rfl
@[simp] theorem State.setRegFlag_keys (s : State) (l : Bool) (x : Nibble) (r : Byte) (f : Bool) : (s.setRegFlag l x r f).keys = s.keys := by cases l <;> rfl
@[simp] theorem State.setRegFlag_execState (s : State) (l : Bool) (x : Nibble) (r : Byte) (f : Bool) : (s.setRegFlag l x r f).execState = s.execState := by cases l <;> rfl
@[simp] theorem State.setRegFlag_fault (s : State) (l : Bool) (x : Nibble) (r : Byte) (f : Bool) : (s.setRegFlag l x r f).fault = s.fault := by cases l <;> rfl
@[simp] theorem State.setRegFlag_soundActive (s : State) (l : Bool) (x : Nibble) (r : Byte) (f : Bool) : (s.setRegFlag l x r f).soundActive = s.soundActive := by cases l <;> rfl
@[simp] theorem State.setRegFlag_draws (s : State) (l : Bool) (x : Nibble) (r : Byte) (f : Bool) : (s.setRegFlag l x r f).draws = s.draws := by cases l <;> rfl
@[simp] theorem State.setRegFlag_byteAt (s : State) (l : Bool) (x : Nibble) (r : Byte) (f : Bool) (a : Nat) : (s.setRegFlag l x r f).byteAt a = s.byteAt a := by cases l <;> rfl
@[simp] theorem State.setRegFlag_keyDown (s : State) (l : Bool) (x : Nibble) (r : Byte) (f : Bool) (k : Nat) : (s.setRegFlag l x r f).keyDown k = s.keyDown k := by cases l <;> rfl

/-! ### addIndex -/

@[simp] theorem State.addIndex_mem (s : State) (p : Fx1ePolicy) (x : Nibble) : (s.addIndex p x).mem = s.mem := by cases p <;> rfl
@[simp] theorem State.addIndex_display (s : State) (p : Fx1ePolicy) (x : Nibble) : (s.addIndex p x).display = s.display := by cases p <;> rfl
@[simp] theorem State.addIndex_pc (s : State) (p : Fx1ePolicy) (x : Nibble) : (s.addIndex p x).pc = s.pc := by cases p <;> rfl
@[simp] theorem State.addIndex_stack (s : State) (p : Fx1ePolicy) (x : Nibble) : (s.addIndex p x).stack = s.stack := by cases p <;> rfl
@[simp] theorem State.addIndex_sp (s : State) (p : Fx1ePolicy) (x : Nibble) : (s.addIndex p x).sp = s.sp := by cases p <;> rfl
@[simp] theorem State.addIndex_dt (s : State) (p : Fx1ePolicy) (x : Nibble) : (s.addIndex p x).dt = s.dt := by cases p <;> rfl
@[simp] theorem State.addIndex_st (s : State) (p : Fx1ePolicy) (x : Nibble) : (s.addIndex p x).st = s.st := by cases p <;> rfl
@[simp] theorem State.addIndex_keys (s : State) (p : Fx1ePolicy) (x : Nibble) : (s.addIndex p x).keys = s.keys := by cases p <;> rfl
@[simp] theorem State.addIndex_execState (s : State) (p : Fx1ePolicy) (x : Nibble) : (s.addIndex p x).execState = s.execState := by cases p <;> rfl
@[simp] theorem State.addIndex_fault (s : State) (p : Fx1ePolicy) (x : Nibble) : (s.addIndex p x).fault = s.fault := by cases p <;> rfl
@[simp] theorem State.addIndex_soundActive (s : State) (p : Fx1ePolicy) (x : Nibble) : (s.addIndex p x).soundActive = s.soundActive := by cases p <;> rfl
@[simp] theorem State.addIndex_draws (s : State) (p : Fx1ePolicy) (x : Nibble) : (s.addIndex p x).draws = s.draws := by cases p <;> rfl
@[simp] theorem State.addIndex_byteAt (s : State) (p : Fx1ePolicy) (x : Nibble) (a : Nat) : (s.addIndex p x).byteAt a = s.byteAt a := by cases p <;> rfl
@[simp] theorem State.addIndex_keyDown (s : State) (p : Fx1ePolicy) (x : Nibble) (k : Nat) : (s.addIndex p x).keyDown k = s.keyDown k := by cases p <;> rfl

/-! ### tickTimers -/

@[simp] theorem State.tickTimers_mem (s : State) : (s.tickTimers).mem = s.mem := rfl
@[simp] theorem State.tickTimers_display (s : State) : (s.tickTimers).display = s.display := rfl
@[simp] theorem State.tickTimers_v (s : State) : (s.tickTimers).v = s.v := rfl
@[simp] theorem State.tickTimers_i (s : State) : (s.tickTimers).i = s.i := rfl
@[simp] theorem State.tickTimers_pc (s : State) : (s.tickTimers).pc = s.pc := rfl
@[simp] theorem State.tickTimers_stack (s : State) : (s.tickTimers).stack = s.stack := rfl
@[simp] theorem State.tickTimers_sp (s : State) : (s.tickTimers).sp = s.sp := rfl
@[simp] theorem State.tickTimers_dt (s : State) : (s.tickTimers).dt = tickDown s.dt := rfl
@[simp] theorem State.tickTimers_st (s : State) : (s.tickTimers).st = tickDown s.st := rfl
@[simp] theorem State.tickTimers_keys (s : State) : (s.tickTimers).keys = s.keys := rfl
@[simp] theorem State.tickTimers_execState (s : State) : (s.tickTimers).execState = s.execState := rfl
@[simp] theorem State.tickTimers_fault (s : State) : (s.tickTimers).fault = s.fault := rfl
@[simp] theorem State.tickTimers_soundActive (s : State) : (s.tickTimers).soundActive = decide (s.st ≠ 0) := rfl
@[simp] theorem State.tickTimers_draws (s : State) : (s.tickTimers).draws = s.draws := rfl
@[simp] theorem State.tickTimers_reg (s : State) (k : Nibble) : (s.tickTimers).reg k = s.reg k := rfl
@[simp] theorem State.tickTimers_byteAt (s : State) (a : Nat) : (s.tickTimers).byteAt a = s.byteAt a := rfl
@[simp] theorem State.tickTimers_keyDown (s : State) (k : Nat) : (s.tickTimers).keyDown k = s.keyDown k := rfl

/-! ### setKey -/

@[simp] theorem State.setKey_mem (s : State) (k : Nat) (p : Bool) : (s.setKey k p).mem = s.mem := rfl
@[simp] theorem State.setKey_display (s : State) (k : Nat) (p : Bool) : (s.setKey k p).display = s.display := rfl
@[simp] theorem State.setKey_v (s : State) (k : Nat) (p : Bool) : (s.setKey k p).v = s.v := rfl
@[simp] theorem State.setKey_i (s : State) (k : Nat) (p : Bool) : (s.setKey k p).i = s.i := rfl
@[simp] theorem State.setKey_pc (s : State) (k : Nat) (p : Bool) : (s.setKey k p).pc = s.pc := rfl
@[simp] theorem State.setKey_stack (s : State) (k : Nat) (p : Bool) : (s.setKey k p).stack = s.stack := rfl
@[simp] theorem State.setKey_sp (s : State) (k : Nat) (p : Bool) : (s.setKey k p).sp = s.sp := rfl
@[simp] theorem State.setKey_dt (s : State) (k : Nat) (p : Bool) : (s.setKey k p).dt = s.dt := rfl
@[simp] theorem State.setKey_st (s : State) (k : Nat) (p : Bool) : (s.setKey k p).st = s.st := rfl
@[simp] theorem State.setKey_keys (s : State) (k : Nat) (p : Bool) : (s.setKey k p).keys = s.keys.setIfInBounds k p := rfl
@[simp] theorem State.setKey_execState (s : State) (k : Nat) (p : Bool) : (s.setKey k p).execState = s.execState := rfl
@[simp] theorem State.setKey_fault (s : State) (k : Nat) (p : Bool) : (s.setKey k p).fault = s.fault := rfl
@[simp] theorem State.setKey_soundActive (s : State) (k : Nat) (p : Bool) : (s.setKey k p).soundActive = s.soundActive := rfl
@[simp] theorem State.setKey_draws (s : State) (k : Nat) (p : Bool) : (s.setKey k p).draws = s.draws := rfl
@[simp] theorem State.setKey_reg (s : State) (k : Nat) (p : Bool) (j : Nibble) : (s.setKey k p).reg j = s.reg j := rfl
@[simp] theorem State.setKey_byteAt (s : State) (k : Nat) (p : Bool) (a : Nat) : (s.setKey k p).byteAt a = s.byteAt a := rfl

/-! ### pause -/

@[simp] theorem State.pause_mem (s : State) : (s.pause).mem = s.mem := rfl
@[simp] theorem State.pause_display (s : State) : (s.pause).display = s.display := rfl
@[simp] theorem State.pause_v (s : State) : (s.pause).v = s.v := rfl
@[simp] theorem State.pause_i (s : State) : (s.pause).i = s.i := rfl
@[simp] theorem State.pause_pc (s : State) : (s.pause).pc = s.pc := rfl
@[simp] theorem State.pause_stack (s : State) : (s.pause).stack = s.stack := rfl
@[simp] theorem State.pause_sp (s : State) : (s.pause).sp = s.sp := rfl
@[simp] theorem State.pause_dt (s : State) : (s.pause).dt = s.dt := rfl
@[simp] theorem State.pause_st (s : State) : (s.pause).st = s.st := rfl
@[simp] theorem State.pause_keys (s : State) : (s.pause).keys = s.keys := rfl
@[simp] theorem State.pause_execState (s : State) : (s.pause).execState = if s.execState = .running then .paused else s.execState := rfl
@[simp] theorem State.pause_fault (s : State) : (s.pause).fault = s.fault := rfl
@[simp] theorem State.pause_soundActive (s : State) : (s.pause).soundActive = s.soundActive := rfl
@[simp] theorem State.pause_draws (s : State) : (s.pause).draws = s.draws := rfl
@[simp] theorem State.pause_reg (s : State) (k : Nibble) : (s.pause).reg k = s.reg k := rfl
@[simp] theorem State.pause_byteAt (s : State) (a : Nat) : (s.pause).byteAt a = s.byteAt a := rfl
@[simp] theorem State.pause_keyDown (s : State) (k : Nat) : (s.pause).keyDown k = s.keyDown k := rfl

/-! ### resume -/

@[simp] theorem State.resume_mem (s : State) : (s.resume).mem = s.mem := rfl
@[simp] theorem State.resume_display (s : State) : (s.resume).display = s.display := rfl
@[simp] theorem State.resume_v (s : State) : (s.resume).v = s.v := rfl
@[simp] theorem State.resume_i (s : State) : (s.resume).i = s.i := rfl
@[simp] theorem State.resume_pc (s : State) : (s.resume).pc = s.pc := rfl
@[simp] theorem State.resume_stack (s : State) : (s.resume).stack = s.stack := rfl
@[simp] theorem State.resume_sp (s : State) : (s.resume).sp = s.sp := rfl
@[simp] theorem State.resume_dt (s : State) : (s.resume).dt = s.dt := rfl
@[simp] theorem State.resume_st (s : State) : (s.resume).st = s.st := rfl
@[simp] theorem State.resume_keys (s : State) : (s.resume).keys = s.keys := rfl
@[simp] theorem State.resume_execState (s : State) : (s.resume).execState = if s.execState = .paused then .running else s.execState := rfl
@[simp] theorem State.resume_fault (s : State) : (s.resume).fault = s.fault := rfl
@[simp] theorem State.resume_soundActive (s : State) : (s.resume).soundActive = s.soundActive := rfl
@[simp] theorem State.resume_draws (s : State) : (s.resume).draws = s.draws := rfl
@[simp] theorem State.resume_reg (s : State) (k : Nibble) : (s.resume).reg k = s.reg k := rfl
@[simp] theorem State.resume_byteAt (s : State) (a : Nat) : (s.resume).byteAt a = s.byteAt a := rfl
@[simp] theorem State.resume_keyDown (s : State) (k : Nat) : (s.resume).keyDown k = s.keyDown k := rfl

/-! ### quit -/

@[simp] theorem State.quit_mem (s : State) : (s.quit).mem = s.mem := rfl
@[simp] theorem State.quit_display (s : State) : (s.quit).display = s.display := rfl
@[simp] theorem State.quit_v (s : State) : (s.quit).v = s.v := rfl
@[simp] theorem State.quit_i (s : State) : (s.quit).i = s.i := rfl
@[simp] theorem State.quit_pc (s : State) : (s.quit).pc = s.pc := rfl
@[simp] theorem State.quit_stack (s : State) : (s.quit).stack = s.stack := rfl
@[simp] theorem State.quit_sp (s : State) : (s.quit).sp = s.sp := rfl
@[simp] theorem State.quit_dt (s : State) : (s.quit).dt = s.dt := rfl
@[simp] theorem State.quit_st (s : State) : (s.quit).st = s.st := rfl
@[simp] theorem State.quit_keys (s : State) : (s.quit).keys = s.keys := rfl
@[simp] theorem State.quit_execState (s : State) : (s.quit).execState = .halted := rfl
@[simp] theorem State.quit_fault (s : State) : (s.quit).fault = s.fault := rfl
@[simp] theorem State.quit_soundActive (s : State) : (s.quit).soundActive = s.soundActive := rfl
@[simp] theorem State.quit_draws (s : State) : (s.quit).draws = s.draws := rfl
@[simp] theorem State.quit_reg (s : State) (k : Nibble) : (s.quit).reg k = s.reg k := rfl
@[simp] theorem State.quit_byteAt (s : State) (a : Nat) : (s.quit).byteAt a = s.byteAt a := rfl
@[simp] theorem State.quit_keyDown (s : State) (k : Nat) : (s.quit).keyDown k = s.keyDown k := rfl

/-! ### The registers -/

/-- A register after a write: the byte written at its index, the old byte elsewhere. -/
theorem State.reg_setReg (s : State) (x k : Nibble) (b : Byte) :
    (s.setReg x b).reg k = if k = x then b else s.reg k := by
  by_cases h : k = x
  · subst h; simp [State.reg]
  · have : x.toNat ≠ k.toNat := fun e => h (BitVec.eq_of_toNat_eq e.symm)
    simp [State.reg, h, Vector.getElem_set_ne _ _ this]

@[simp] theorem State.reg_setReg_self (s : State) (x : Nibble) (b : Byte) : (s.setReg x b).reg x = b := by
  simp [State.reg_setReg]

theorem State.reg_setReg_of_ne (s : State) {x k : Nibble} (b : Byte) (h : k ≠ x) :
    (s.setReg x b).reg k = s.reg k := by
  simp [State.reg_setReg, h]

end Sys2Proof.Machine
end

