-- ==== Sys2Proof/Laws/Ops.lean ====
section
/-! SUPPORT. One lemma per shared operation, saying once everything it can do; later proofs cite these instead of
unfolding the operation. -/

namespace Sys2Proof.Machine

/-! ### Raising -/

@[simp] theorem State.orRaise_some (s : State) (e : ExecError) (info : Word) (t : State) :
    s.orRaise e info (some t) = .next t := rfl

@[simp] theorem State.orRaise_none (s : State) (e : ExecError) (info : Word) :
    s.orRaise e info none = .next (s.raise e info) := rfl

/-- `orRaise` answers the state given, or the state before the step with the latch set. -/
theorem State.orRaise_cases {s t : State} {e : ExecError} {info : Word} {o : Option State}
    (h : s.orRaise e info o = .next t) : o = some t ∨ (o = none ∧ t = s.raise e info) := by
  cases o with
  | none => exact .inr ⟨rfl, (Host.Outcome.next.inj h).symm⟩
  | some u => exact .inl (congrArg some (Host.Outcome.next.inj h))

/-- Raising writes only the latch (R216). -/
theorem State.raise_eq (s : State) (e : ExecError) (info : Word) :
    s.raise e info = { s with fault := some ⟨e, s.pc, info⟩ } := rfl

/-! ### Stack -/

/-- A push on a stack with no room answers none: at the capacity of the configuration, or at the one State holds
(R31). -/
theorem State.push_of_full {c : Config} {s : State} (h : c.stackCapacity ≤ s.sp.val ∨ s.sp.val = hardware.stackCapacity)
    (w : Word) : s.push c w = none := by
  unfold State.push
  exact dif_neg (by omega)

/-- A push on a stack that is not full writes the entry at `SP` and counts it (R31). -/
theorem State.push_cases {c : Config} {s t : State} {w : Word} (h : s.push c w = some t) :
    s.sp.val < c.stackCapacity ∧ s.sp.val < hardware.stackCapacity ∧ t.sp.val = s.sp.val + 1 ∧
      (∀ k : Fin hardware.stackCapacity, t.stack[k] = if k.val = s.sp.val then w else s.stack[k]) ∧
      t = { s with stack := t.stack, sp := t.sp } := by
  unfold State.push at h
  split at h
  · rename_i hlt
    obtain rfl := (Option.some.inj h).symm
    refine ⟨hlt.1, hlt.2, rfl, fun k => ?_, rfl⟩
    simp only [Fin.getElem_fin, Vector.getElem_set, eq_comm]
  · cases h

/-- A push on a stack with room answers a state (R31). -/
theorem State.push_isSome {c : Config} {s : State} (hc : s.sp.val < c.stackCapacity)
    (h : s.sp.val < hardware.stackCapacity) (w : Word) : ∃ t, s.push c w = some t := by
  unfold State.push
  rw [dif_pos ⟨hc, h⟩]
  exact ⟨_, rfl⟩

theorem State.pop_of_empty {s : State} (h : s.sp = 0) : s.pop = none := by
  simp [State.pop, h]

/-- A pop of a stack that is not empty answers the most recent entry and counts it off; the entries stay (R32). -/
theorem State.pop_cases {s t : State} {w : Word} (h : s.pop = some (w, t)) :
    s.sp.val = t.sp.val + 1 ∧ (∃ hk : t.sp.val < hardware.stackCapacity, w = s.stack[t.sp.val]) ∧
      t = { s with sp := t.sp } := by
  unfold State.pop at h
  split at h
  · cases h
  · rename_i hne
    obtain ⟨rfl, rfl⟩ := Prod.mk.inj (Option.some.inj h)
    have := s.sp.isLt
    exact ⟨by simp; omega, ⟨show s.sp.val - 1 < hardware.stackCapacity by omega, rfl⟩, rfl⟩

theorem State.pop_isSome {s : State} (h : s.sp.val ≠ 0) : ∃ r, s.pop = some r := by
  unfold State.pop
  rw [dif_neg h]
  exact ⟨_, rfl⟩

/-! ### Ranges through `I` -/

/-- The bounds check, as arithmetic (R157, R178). -/
theorem rangeFits_iff (c : Config) (base : Word) (count : Nat) :
    rangeFits c base count = true ↔ count = 0 ∨ base.toNat + count ≤ c.memSize := by
  simp [rangeFits]

/-- The info of an out-of-range transfer is `max(I, MEM_SIZE)`, 0x1000 on this hardware (R157). -/
theorem firstOutside_toNat {c : Config} (hc : c.memSize < 65536) (base : Word) :
    (firstOutside c base).toNat = max base.toNat c.memSize := by
  unfold firstOutside
  split
  · rw [BitVec.toNat_ofNat, Nat.mod_eq_of_lt hc]
    omega
  · omega

@[simp] theorem State.guardRange_of_fits {c : Config} {s t : State} {n : Nat} (h : rangeFits c s.i n = true) :
    s.guardRange c n t = .next t := by
  simp [State.guardRange, h]

@[simp] theorem State.guardRange_of_outside {c : Config} {s t : State} {n : Nat} (h : rangeFits c s.i n = false) :
    s.guardRange c n t = .next (s.raise .addressOutOfRange (firstOutside c s.i)) := by
  simp [State.guardRange, h]

/-- A guarded transfer completes as given, or raises and writes only the latch (R55, R157). -/
theorem State.guardRange_cases {c : Config} {s t u : State} {n : Nat} (h : s.guardRange c n t = .next u) :
    (rangeFits c s.i n = true ∧ u = t) ∨
      (rangeFits c s.i n = false ∧ u = s.raise .addressOutOfRange (firstOutside c s.i)) := by
  cases hr : rangeFits c s.i n with
  | true => exact .inl ⟨rfl, (Host.Outcome.next.inj ((State.guardRange_of_fits hr).symm.trans h)).symm⟩
  | false => exact .inr ⟨rfl, (Host.Outcome.next.inj ((State.guardRange_of_outside hr).symm.trans h)).symm⟩

/-! ### Registers to and from memory -/

theorem State.length_regsUpTo (s : State) (x : Nibble) : (s.regsUpTo x).length = x.toNat + 1 := by
  have := x.isLt
  simp only [State.regsUpTo, List.length_take, Vector.length_toList]
  omega

/-- Byte `k` of the registers stored is `V[k]` (R155). -/
theorem State.getElem_regsUpTo (s : State) (x k : Nibble) (h : k.toNat < (s.regsUpTo x).length) :
    (s.regsUpTo x)[k.toNat] = s.reg k := by
  simp [State.regsUpTo, State.reg]

/-- A register after a load of V[0..X]: the memory byte for an index up to X, the old byte above (R156). -/
theorem State.reg_loadRegs (s : State) (x k : Nibble) :
    (s.loadRegs x).reg k = if k.toNat ≤ x.toNat then s.byteAt (s.i.toNat + k.toNat) else s.reg k := by
  simp [State.loadRegs, State.reg]

theorem length_decimalDigits (b : Byte) : (decimalDigits b).length = 3 := rfl

/-! ### Result and flag -/

/-- With the flag last, VF ends holding the flag whatever X is (R133). -/
theorem State.reg_setRegFlag_last (s : State) (x k : Nibble) (r : Byte) (f : Bool) :
    (s.setRegFlag true x r f).reg k = if k = vf then flagByte f else if k = x then r else s.reg k := by
  simp [State.setRegFlag, State.reg_setReg]

/-- With the result last, VF ends holding the result where X is VF (R133's other order). -/
theorem State.reg_setRegFlag_first (s : State) (x k : Nibble) (r : Byte) (f : Bool) :
    (s.setRegFlag false x r f).reg k = if k = x then r else if k = vf then flagByte f else s.reg k := by
  simp [State.setRegFlag, State.reg_setReg]

/-- `wrap4096` writes `I` alone (R151). -/
theorem State.addIndex_wrap4096 (s : State) (x : Nibble) :
    s.addIndex .wrap4096 x = s.setIndex (BitVec.ofNat 16 ((s.i.toNat + (s.reg x).toNat) % 4096)) := rfl

/-! ### Keys -/

theorem keyIndex_fault_some {c : Config} (hc : c.keyIndexPolicy = .fault) {b : Byte} (h : b.toNat < c.numKeys) :
    keyIndex c b = some b.toNat := by
  simp [keyIndex, hc, h]

theorem keyIndex_fault_none {c : Config} (hc : c.keyIndexPolicy = .fault) {b : Byte} (h : c.numKeys ≤ b.toNat) :
    keyIndex c b = none := by
  simp [keyIndex, hc, h]

/-- The key skip under `fault` completes, or raises on an index that is no key (R190 to R192). -/
theorem State.keySkip_cases {c : Config} (hc : c.keyIndexPolicy = .fault) {s t : State} {wanted : Bool} {x : Nibble}
    (h : s.keySkip c wanted x = .next t) :
    ((s.reg x).toNat < c.numKeys ∧ t = s.advance.skipIf (s.keyDown (s.reg x).toNat == wanted)) ∨
      (c.numKeys ≤ (s.reg x).toNat ∧ t = s.raise .addressOutOfRange (zext16 (s.reg x))) := by
  rcases Nat.lt_or_ge (s.reg x).toNat c.numKeys with hk | hk
  · rw [State.keySkip, keyIndex_fault_some hc hk] at h
    exact .inl ⟨hk, (Host.Outcome.next.inj h).symm⟩
  · rw [State.keySkip, keyIndex_fault_none hc hk] at h
    exact .inr ⟨hk, (Host.Outcome.next.inj h).symm⟩

/-- The scan finds the lowest pressed key below its end (R194). -/
theorem State.firstKey_eq_some {s : State} {scanEnd k : Nat} :
    s.firstKey scanEnd = some k ↔ k < scanEnd ∧ s.keyDown k = true ∧ ∀ j < k, s.keyDown j = false := by
  unfold State.firstKey
  rw [List.find?_range_eq_some]
  constructor
  · rintro ⟨h1, h2, h3⟩
    exact ⟨by simpa using h2, h1, fun j hj => by simpa using h3 j hj⟩
  · rintro ⟨h1, h2, h3⟩
    exact ⟨h2, by simpa using h1, fun j hj => by simpa using h3 j hj⟩

/-- The scan finds nothing where no key below its end is pressed (R194). -/
theorem State.firstKey_eq_none {s : State} {scanEnd : Nat} :
    s.firstKey scanEnd = none ↔ ∀ k < scanEnd, s.keyDown k = false := by
  simp [State.firstKey, List.find?_eq_none]

/-- A key that is found is a key, so it fits a register (R194). -/
theorem State.keyDown_lt {s : State} {k : Nat} (h : s.keyDown k = true) : k < 16 := by
  by_contra hk
  simp [State.keyDown, Vector.getD, hk] at h

end Sys2Proof.Machine
end

