-- ==== Sys2Proof/Laws/PerInstr.lean ====
section
/-! SUPPORT. Per-instruction statements, one lemma per constructor of Instr. Family Pattern: the encoded word carries
the fixed bits of its row of the opcode table (R84). -/

namespace Sys2Proof.Laws

/-- The encoded word of an instruction selects its own row (R84). -/
def Pattern.Statement (i : Instr) : Prop := selects i.row (encode i) = true

/-- Format A: the mask leaves the major nibble. -/
theorem selects_formatA (m : Nibble) (nnn : Address) : selects (formatA m 0, 0xF000) (formatA m nnn) = true := by
  simp only [selects, beq_iff_eq]
  ext i hi
  interval_cases i <;> simp [formatA]

/-- Format XNN: the mask leaves the major nibble. -/
theorem selects_formatXNN (m x : Nibble) (nn : Byte) :
    selects (formatXNN m 0 0, 0xF000) (formatXNN m x nn) = true := by
  simp only [selects, beq_iff_eq]
  ext i hi
  interval_cases i <;> simp [formatXNN]

/-- Format XK: the mask leaves the major nibble and the low byte. -/
theorem selects_formatXK (m x : Nibble) (nn : Byte) :
    selects (formatXNN m 0 nn, 0xF0FF) (formatXNN m x nn) = true := by
  simp only [selects, beq_iff_eq]
  ext i hi
  interval_cases i <;> simp [formatXNN]

/-- Format XYN: the mask leaves the major nibble. -/
theorem selects_formatXYN (m x y n : Nibble) :
    selects (formatXYN m 0 0 0, 0xF000) (formatXYN m x y n) = true := by
  simp only [selects, beq_iff_eq]
  ext i hi
  interval_cases i <;> simp [formatXYN]

/-- Format XY: the mask leaves the major nibble and the low nibble. -/
theorem selects_formatXY (m x y n : Nibble) :
    selects (formatXYN m 0 0 n, 0xF00F) (formatXYN m x y n) = true := by
  simp only [selects, beq_iff_eq]
  ext i hi
  interval_cases i <;> simp [formatXYN]

theorem Pattern.cls : Pattern.Statement (.cls) := rfl

theorem Pattern.ret : Pattern.Statement (.ret) := rfl

theorem Pattern.jp (nnn : Address) : Pattern.Statement (.jp nnn) := selects_formatA 0x1 nnn

theorem Pattern.call (nnn : Address) : Pattern.Statement (.call nnn) := selects_formatA 0x2 nnn

theorem Pattern.seVxNn (x : Nibble) (nn : Byte) : Pattern.Statement (.seVxNn x nn) := selects_formatXNN 0x3 x nn

theorem Pattern.sneVxNn (x : Nibble) (nn : Byte) : Pattern.Statement (.sneVxNn x nn) := selects_formatXNN 0x4 x nn

theorem Pattern.seVxVy (x : Nibble) (y : Nibble) : Pattern.Statement (.seVxVy x y) := selects_formatXY 0x5 x y 0x0

theorem Pattern.ldVxNn (x : Nibble) (nn : Byte) : Pattern.Statement (.ldVxNn x nn) := selects_formatXNN 0x6 x nn

theorem Pattern.addVxNn (x : Nibble) (nn : Byte) : Pattern.Statement (.addVxNn x nn) := selects_formatXNN 0x7 x nn

theorem Pattern.ldVxVy (x : Nibble) (y : Nibble) : Pattern.Statement (.ldVxVy x y) := selects_formatXY 0x8 x y 0x0

theorem Pattern.orVxVy (x : Nibble) (y : Nibble) : Pattern.Statement (.orVxVy x y) := selects_formatXY 0x8 x y 0x1

theorem Pattern.andVxVy (x : Nibble) (y : Nibble) : Pattern.Statement (.andVxVy x y) := selects_formatXY 0x8 x y 0x2

theorem Pattern.xorVxVy (x : Nibble) (y : Nibble) : Pattern.Statement (.xorVxVy x y) := selects_formatXY 0x8 x y 0x3

theorem Pattern.addVxVy (x : Nibble) (y : Nibble) : Pattern.Statement (.addVxVy x y) := selects_formatXY 0x8 x y 0x4

theorem Pattern.subVxVy (x : Nibble) (y : Nibble) : Pattern.Statement (.subVxVy x y) := selects_formatXY 0x8 x y 0x5

theorem Pattern.shrVx (x : Nibble) (y : Nibble) : Pattern.Statement (.shrVx x y) := selects_formatXY 0x8 x y 0x6

theorem Pattern.subnVxVy (x : Nibble) (y : Nibble) : Pattern.Statement (.subnVxVy x y) := selects_formatXY 0x8 x y 0x7

theorem Pattern.shlVx (x : Nibble) (y : Nibble) : Pattern.Statement (.shlVx x y) := selects_formatXY 0x8 x y 0xE

theorem Pattern.sneVxVy (x : Nibble) (y : Nibble) : Pattern.Statement (.sneVxVy x y) := selects_formatXY 0x9 x y 0x0

theorem Pattern.ldINnn (nnn : Address) : Pattern.Statement (.ldINnn nnn) := selects_formatA 0xA nnn

theorem Pattern.jpV0Nnn (nnn : Address) : Pattern.Statement (.jpV0Nnn nnn) := selects_formatA 0xB nnn

theorem Pattern.rndVxNn (x : Nibble) (nn : Byte) : Pattern.Statement (.rndVxNn x nn) := selects_formatXNN 0xC x nn

theorem Pattern.drwVxVyN (x : Nibble) (y : Nibble) (n : Nibble) : Pattern.Statement (.drwVxVyN x y n) := selects_formatXYN 0xD x y n

theorem Pattern.skpVx (x : Nibble) : Pattern.Statement (.skpVx x) := selects_formatXK 0xE x 0x9E

theorem Pattern.sknpVx (x : Nibble) : Pattern.Statement (.sknpVx x) := selects_formatXK 0xE x 0xA1

theorem Pattern.ldVxDt (x : Nibble) : Pattern.Statement (.ldVxDt x) := selects_formatXK 0xF x 0x07

theorem Pattern.ldVxK (x : Nibble) : Pattern.Statement (.ldVxK x) := selects_formatXK 0xF x 0x0A

theorem Pattern.ldDtVx (x : Nibble) : Pattern.Statement (.ldDtVx x) := selects_formatXK 0xF x 0x15

theorem Pattern.ldStVx (x : Nibble) : Pattern.Statement (.ldStVx x) := selects_formatXK 0xF x 0x18

theorem Pattern.addIVx (x : Nibble) : Pattern.Statement (.addIVx x) := selects_formatXK 0xF x 0x1E

theorem Pattern.ldFVx (x : Nibble) : Pattern.Statement (.ldFVx x) := selects_formatXK 0xF x 0x29

theorem Pattern.ldBVx (x : Nibble) : Pattern.Statement (.ldBVx x) := selects_formatXK 0xF x 0x33

theorem Pattern.ldMemVx (x : Nibble) : Pattern.Statement (.ldMemVx x) := selects_formatXK 0xF x 0x55

theorem Pattern.ldVxMem (x : Nibble) : Pattern.Statement (.ldVxMem x) := selects_formatXK 0xF x 0x65

end Sys2Proof.Laws
end

