-- ==== Sys2Proof/Laws/Step.lean ====
section
/-! SUPPORT. What a step can do (R70 to R77), said once. -/

namespace Sys2Proof.Machine

theorem State.gateOpen_iff (s : State) : s.gateOpen = true ↔ s.fault = none ∧ s.execState = .running := by
  simp [State.gateOpen]

theorem State.fetchFits_iff (s : State) : s.fetchFits = true ↔ s.pc.toNat + 1 < hardware.memSize := by
  simp only [State.fetchFits, State.fetchFitsUnder, decide_eq_true_eq]

/-- The opcode at `pc`, high byte at the lower address (R52, R72). -/
theorem State.decodeBytes_fetchBytes (s : State) :
    decodeBytes s.fetchBytes =
      (decode (opcodeOf (s.byteAt s.pc.toNat) (s.byteAt (s.pc.toNat + 1)))).map (fun i => (i, [])) := rfl

/-- A step that answers a next state: the gate is shut and nothing changes; or the fetch is out of range and
latches; or the decoded instruction is executed; or the opcode is unknown and only `pc` advances. -/
theorem step_cases {s t : State} (h : step s = .next t) :
    (s.gateOpen = false ∧ t = s) ∨
    (s.gateOpen = true ∧ s.fetchFits = false ∧ t = s.raise .addressOutOfRange s.pc) ∨
    (s.gateOpen = true ∧ s.fetchFits = true ∧ ∃ i,
      decode (opcodeOf (s.byteAt s.pc.toNat) (s.byteAt (s.pc.toNat + 1))) = .ok i ∧ exec i s = .next t) ∨
    (s.gateOpen = true ∧ s.fetchFits = true ∧ (∃ e,
      decode (opcodeOf (s.byteAt s.pc.toNat) (s.byteAt (s.pc.toNat + 1))) = .error e) ∧ t = s.advance) := by
  unfold step at h
  cases hg : s.gateOpen with
  | false =>
    rw [hg] at h
    exact .inl ⟨rfl, (Host.Outcome.next.inj h).symm⟩
  | true =>
    cases hf : s.fetchFits with
    | false =>
      rw [hg, hf] at h
      exact .inr (.inl ⟨rfl, rfl, (Host.Outcome.next.inj h).symm⟩)
    | true =>
      rw [hg, hf, State.decodeBytes_fetchBytes] at h
      cases hd : decode (opcodeOf (s.byteAt s.pc.toNat) (s.byteAt (s.pc.toNat + 1))) with
      | ok i =>
        rw [hd] at h
        exact .inr (.inr (.inl ⟨rfl, rfl, i, rfl, h⟩))
      | error e =>
        rw [hd] at h
        exact .inr (.inr (.inr ⟨rfl, rfl, ⟨e, rfl⟩, (Host.Outcome.next.inj h).symm⟩))

/-- The word placed by `withFetchWord` is the word the next step fetches. -/
theorem State.fetchBytes_withFetchWord (s : State) (nbits w : Nat) :
    (s.withFetchWord nbits w).fetchBytes = [highByte (tableWord nbits w), lowByte (tableWord nbits w)] := by
  have h0 := memRead_writeList_inside s.mem (a := s.fetchSite.toNat) (k := 0)
    [highByte (tableWord nbits w), lowByte (tableWord nbits w)] (by simp)
  have h1 := memRead_writeList_inside s.mem (a := s.fetchSite.toNat) (k := 1)
    [highByte (tableWord nbits w), lowByte (tableWord nbits w)] (by simp)
  simp only [State.fetchBytes, State.byteAt, State.withFetchWord]
  rw [Nat.add_zero] at h0
  rw [h0, h1]
  rfl

end Sys2Proof.Machine
end

