-- ==== Sys2Proof/Laws/Transactions.lean ====
section
/-! SUPPORT. The laws of the host's transactions (R225 to R231, R250). -/

namespace Sys2Proof.Machine

/-- A timer goes down by one and stops at 0 (R222). -/
theorem tickDown_toNat (t : Byte) : (tickDown t).toNat = t.toNat - 1 := by
  unfold tickDown
  split
  · rename_i h; subst h; rfl
  · rename_i h
    have h0 : t.toNat ≠ 0 := fun e => h (BitVec.eq_of_toNat_eq e)
    have h1 : (1 : Byte) ≤ t := by rw [BitVec.le_def]; show 1 ≤ t.toNat; omega
    rw [BitVec.toNat_sub_of_le h1]
    rfl

/-- A key after `set_key` (R228). -/
theorem State.keyDown_setKey (s : State) {k : Nat} (hk : k < hardware.numKeys) (p : Bool) (j : Nat) :
    (s.setKey k p).keyDown j = if j = k then p else s.keyDown j := by
  by_cases hj : j < hardware.numKeys
  · by_cases e : j = k
    · subst e; simp [State.keyDown, State.setKey, Vector.getD, hj]
    · have : ¬ k = j := fun h => e h.symm
      simp [State.keyDown, State.setKey, Vector.getD, hj, e, this]
  · have : ¬ j = k := by omega
    simp [State.keyDown, State.setKey, Vector.getD, hj, this]

theorem load_unreadable (n : Nat) : load n none = .error .romUnreadable := rfl

theorem load_too_large (n : Nat) {bytes : List Byte} (h : hardware.romMax < bytes.length) :
    load n (some bytes) = .error .romTooLarge := by
  simp [load, h]

theorem load_fits (n : Nat) {bytes : List Byte} (h : bytes.length ≤ hardware.romMax) :
    load n (some bytes) = .ok { State.reset with mem := memWriteList [] hardware.romBase bytes, draws := n } := by
  have : ¬ hardware.romMax < bytes.length := by omega
  simp [load, this]

/-- `State.reset` is the load of the empty ROM (log entry 4). -/
theorem load_empty : load 0 (some []) = .ok State.reset := rfl

end Sys2Proof.Machine
end

