-- ==== Sys2Proof/Machine/Policies.lean ====
section
/-! DEFINITION. The instructions, the step and the transactions under any values of the parameters of spec/00_scope.md
R9, so that a claim can be made over the values the spec names. `exec`, `step` and `transact` are these at `hardware`
(Laws/Policies.lean). The parameters that a rule reads as a number or a policy (`MEM_SIZE`, `GLYPH_BYTES`,
`STACK_CAPACITY`, `DISP_W`, `DISP_H`, `NUM_KEYS`, `FX0A_SCAN_END`, `FX1E_POLICY`, `FLAG_LAST`, `KEY_INDEX_POLICY`)
come from the configuration; which sizes the one type State can hold, `fitsState` says (log entry 5). -/

namespace Sys2Proof.Machine

/-- The configurations that State can hold: no more stack entries, columns, rows or keys than it has, an address space
that 16 bits reach, and the register count and the widths that the operand fields and the rules' moduli are written
for (R75, R81, R122). Claims over `execUnder c` are about these (log entry 5). -/
def fitsState (c : Config) : Bool :=
  decide (c.stackCapacity ≤ hardware.stackCapacity ∧ c.dispW ≤ hardware.dispW ∧ c.dispH ≤ hardware.dispH ∧
    c.numKeys ≤ hardware.numKeys ∧ c.fx0aScanEnd ≤ hardware.numKeys ∧ c.memSize ≤ 65535) &&
  decide (c.numV = hardware.numV ∧ c.vWidth = hardware.vWidth ∧ c.iWidth = hardware.iWidth ∧
    c.pcWidth = hardware.pcWidth ∧ c.stackEntryWidth = hardware.stackEntryWidth ∧ c.timerWidth = hardware.timerWidth)

/-- `exec` under a configuration: the 15 meanings that read a parameter take it from `c`. -/
def execUnder (c : Config) (i : Instr) (s : State) : Result :=
  match i with
  | .cls => execCls s
  | .ret => execRet s
  | .jp nnn => execJp nnn s
  | .call nnn => execCallUnder c nnn s
  | .seVxNn x nn => execSeVxNn x nn s
  | .sneVxNn x nn => execSneVxNn x nn s
  | .seVxVy x y => execSeVxVy x y s
  | .ldVxNn x nn => execLdVxNn x nn s
  | .addVxNn x nn => execAddVxNn x nn s
  | .ldVxVy x y => execLdVxVy x y s
  | .orVxVy x y => execOrVxVy x y s
  | .andVxVy x y => execAndVxVy x y s
  | .xorVxVy x y => execXorVxVy x y s
  | .addVxVy x y => execAddVxVyUnder c x y s
  | .subVxVy x y => execSubVxVyUnder c x y s
  | .shrVx x y => execShrVxUnder c x y s
  | .subnVxVy x y => execSubnVxVyUnder c x y s
  | .shlVx x y => execShlVxUnder c x y s
  | .sneVxVy x y => execSneVxVy x y s
  | .ldINnn nnn => execLdINnn nnn s
  | .jpV0Nnn nnn => execJpV0Nnn nnn s
  | .rndVxNn x nn => execRndVxNn x nn s
  | .drwVxVyN x y n => execDrwVxVyNUnder c x y n s
  | .skpVx x => execSkpVxUnder c x s
  | .sknpVx x => execSknpVxUnder c x s
  | .ldVxDt x => execLdVxDt x s
  | .ldVxK x => execLdVxKUnder c x s
  | .ldDtVx x => execLdDtVx x s
  | .ldStVx x => execLdStVx x s
  | .addIVx x => execAddIVxUnder c x s
  | .ldFVx x => execLdFVxUnder c x s
  | .ldBVx x => execLdBVxUnder c x s
  | .ldMemVx x => execLdMemVxUnder c x s
  | .ldVxMem x => execLdVxMemUnder c x s

/-- `step` under a configuration (R70 to R77). -/
def stepUnder (c : Config) (s : State) : Result :=
  if s.gateOpen then
    if s.fetchFitsUnder c then
      match decodeBytes s.fetchBytes with
      | .ok (i, _) => execUnder c i s
      | .error _ => execUnknown s
    else execFetchOverrun s
  else .next s

/-- `transact` under a configuration: `load` and `step` are those of `c`, and `set_key` takes the keys of `c` (R228,
R231); no other transaction reads a parameter. -/
def transactUnder (c : Config) (t : Transaction) (s : State) : Host.Outcome (State × Response) Fault Refusal :=
  match t with
  | .load source =>
    match loadUnder c s.draws source with
    | .ok s' => .next (s', .ok)
    | .error e => .refused (.loadFailed e)
  | .step =>
    match stepUnder c s with
    | .next s' => .next (s', s'.stepResponse)
    | .fault r => .fault r
    | .refused r => .refused r
  | .setKey index pressed =>
    if index < c.numKeys then transact (.setKey index pressed) s else .refused (.noSuchKey index)
  | .tickTimers => transact .tickTimers s
  | .pause => transact .pause s
  | .resume => transact .resume s
  | .quit => transact .quit s
  | .readDisplay => transact .readDisplay s
  | .readSound => transact .readSound s
  | .readFault => transact .readFault s

end Sys2Proof.Machine
end

