-- ==== Sys2Proof/Laws/Policies.lean ====
section
/-! SUPPORT. The laws of the parameters: at `hardware` the parametrized instructions, step, load and transactions are
the machine's own, and what the alternatives of R9 do where they differ (R133, R152, R190, R193). -/

namespace Sys2Proof.Machine

/-! ### This hardware is one value of the parameters -/

theorem execUnder_hardware (i : Instr) (s : State) : execUnder hardware i s = exec i s := by
  cases i <;> rfl

/-- State holds this hardware's configuration. -/
theorem hardware_fitsState : fitsState hardware = true := by decide

theorem stepUnder_hardware (s : State) : stepUnder hardware s = step s := by
  have h : execUnder hardware = exec := funext fun i => funext (execUnder_hardware i)
  rw [stepUnder, h]
  rfl

/-- Writing reset contents over an empty list of cells leaves it empty. -/
theorem memWriteList_reset (a : Nat) (bs : List Byte) (h : ∀ k (hk : k < bs.length), bs[k] = resetByteAt (a + k)) :
    memWriteList [] a bs = [] := by
  induction bs generalizing a with
  | nil => rfl
  | cons b rest ih =>
    have hb : b = resetByteAt a := h 0 (by simp)
    have hrest := ih (a + 1) (fun k hk => by
      have := h (k + 1) (by simpa using hk)
      rwa [Nat.add_right_comm, Nat.add_assoc])
    rw [memWriteList, memWrite, if_pos hb]
    exact hrest

theorem loadUnder_hardware (n : Nat) (source : RomSource) : loadUnder hardware n source = load n source := by
  have h : memWriteList [] 0 ((List.range hardware.memSize).map (resetByteUnder hardware)) = [] :=
    memWriteList_reset 0 _ (fun k hk => by simp [resetByteAt])
  cases source with
  | none => rfl
  | some bytes => rw [loadUnder, load, h]; rfl

theorem transactUnder_hardware (t : Transaction) (s : State) : transactUnder hardware t s = transact t s := by
  cases t with
  | load source => rw [transactUnder, loadUnder_hardware]; rfl
  | step => rw [transactUnder, stepUnder_hardware]; rfl
  | setKey index pressed =>
    simp only [transactUnder, transact]
    split <;> rfl
  | _ => rfl

/-! ### The alternatives -/

/-- `FX1E_POLICY = wrap65536`: the sum modulo 65536, no flag (R152). -/
theorem execUnder_addIVx_wrap65536 {c : Config} (hc : c.fx1ePolicy = .wrap65536) (x : Nibble) (s : State) :
    execUnder c (.addIVx x) s =
      .next (s.advance.setIndex (BitVec.ofNat 16 ((s.i.toNat + (s.reg x).toNat) % 65536))) := by
  simp [execUnder, execAddIVxUnder, hc, State.addIndex]

/-- `FX1E_POLICY = flag4096`: the sum modulo 4096, and VF records whether it passed 0xFFF (R152). -/
theorem execUnder_addIVx_flag4096 {c : Config} (hc : c.fx1ePolicy = .flag4096) (x : Nibble) (s : State) :
    execUnder c (.addIVx x) s =
      .next ((s.advance.setIndex (BitVec.ofNat 16 ((s.i.toNat + (s.reg x).toNat) % 4096))).setReg vf
        (if s.i.toNat + (s.reg x).toNat > 0xFFF then 1 else 0)) := by
  simp [execUnder, execAddIVxUnder, hc, State.addIndex]

/-- `FLAG_LAST = false`: with X = 0xF, VF ends holding the result (R133). -/
theorem execUnder_addVxVy_flagFirst {c : Config} (hc : c.flagLast = false) (y : Nibble) (s : State) :
    ∃ t, execUnder c (.addVxVy vf y) s = .next t ∧ t.reg vf = s.reg vf + s.reg y := by
  refine ⟨_, rfl, ?_⟩
  rw [hc, State.reg_setRegFlag_first, if_pos rfl]

/-- `KEY_INDEX_POLICY = mask`: EX9E and EXA1 raise nothing and test the key of the low four bits (R190). -/
theorem execUnder_keySkip_mask {c : Config} (hc : c.keyIndexPolicy = .mask) (x : Nibble) (s : State) :
    execUnder c (.skpVx x) s = .next (s.advance.skipIf (s.keyDown ((s.reg x).toNat % 16) == true)) ∧
    execUnder c (.sknpVx x) s = .next (s.advance.skipIf (s.keyDown ((s.reg x).toNat % 16) == false)) := by
  simp [execUnder, execSkpVxUnder, execSknpVxUnder, hc, State.keySkip, keyIndex]

/-- `STACK_CAPACITY`: a call with that many entries in use raises `StackOverflow(pc_fetch)` and writes only the latch
(R29, R102). -/
theorem execUnder_call_full {c : Config} {s : State} (h : c.stackCapacity ≤ s.sp.val) (nnn : Address) :
    execUnder c (.call nnn) s = .next (s.raise .stackOverflow s.pc) := by
  simp [execUnder, execCallUnder, State.push_of_full (s := s.advance) (.inl h)]

/-- `MEM_SIZE`: a transfer through `I` past it raises before any access (R55, R157, R177). -/
theorem execUnder_transfer_outside {c : Config} {s : State} (x : Nibble) (h : c.memSize ≤ s.i.toNat + x.toNat) :
    execUnder c (.ldMemVx x) s = .next (s.raise .addressOutOfRange (firstOutside c s.i)) ∧
    execUnder c (.ldVxMem x) s = .next (s.raise .addressOutOfRange (firstOutside c s.i)) := by
  have hr : rangeFits c s.i (x.toNat + 1) = false := by
    rw [← Bool.not_eq_true, rangeFits_iff]
    omega
  exact ⟨State.guardRange_of_outside hr, State.guardRange_of_outside hr⟩

/-- `FX0A_SCAN_END`: the lowest pressed key below it is loaded, key 0xF too where it is 0x10 (R193, R194). -/
theorem execUnder_ldVxK {c : Config} {x : Nibble} {s : State} {k : Nat} (hk : k < c.fx0aScanEnd)
    (hd : s.keyDown k = true) (hl : ∀ j < k, s.keyDown j = false) :
    execUnder c (.ldVxK x) s = .next (s.advance.setReg x (BitVec.ofNat 8 k)) := by
  have h : s.firstKey c.fx0aScanEnd = some k := State.firstKey_eq_some.2 ⟨hk, hd, hl⟩
  simp [execUnder, execLdVxKUnder, h]

end Sys2Proof.Machine
end

