-- ==== Sys2Proof/Laws/Screen.lean ====
section
/-! SUPPORT. The laws of the framebuffer: a cell after a clear, after a toggle and after one pixel of a sprite. -/

namespace Sys2Proof.Machine

@[simp] theorem Display.lit_clear (px py : Nat) : Display.clear.lit px py = false := by
  by_cases h : py < hardware.dispH <;> simp [Display.lit, Display.clear, Vector.getD, h]

/-- A cell outside 64x32 is not lit. -/
theorem Display.lit_outside (d : Display) {px py : Nat} (h : hardware.dispW ≤ px ∨ hardware.dispH ≤ py) :
    d.lit px py = false := by
  rcases h with h | h
  · exact BitVec.getLsbD_of_ge _ _ h
  · have : ¬ py < hardware.dispH := by omega
    simp [Display.lit, Vector.getD, this]

/-- A toggle of a cell on the screen flips that cell and no other. -/
theorem Display.lit_toggle (d : Display) {px py : Nat} (hx : px < hardware.dispW) (hy : py < hardware.dispH)
    (qx qy : Nat) :
    (d.toggle px py).lit qx qy = (d.lit qx qy ^^ decide (qx = px ∧ qy = py)) := by
  by_cases hq : qy < hardware.dispH
  · by_cases hqy : qy = py
    · subst hqy
      simp [Display.lit, Display.toggle, Vector.getD, hq, BitVec.getLsbD_twoPow, hx, eq_comm]
    · have : ¬ py = qy := fun e => hqy e.symm
      simp [Display.lit, Display.toggle, Vector.getD, hq, hqy, hy, this]
  · have : ¬ (qx = px ∧ qy = py) := by omega
    simp [Display.lit, Vector.getD, hq, this]

/-- Two displays with the same cells are equal. -/
theorem Display.ext_lit {d e : Display}
    (h : ∀ px py, px < hardware.dispW → py < hardware.dispH → d.lit px py = e.lit px py) : d = e := by
  apply Vector.ext
  intro py hy
  apply BitVec.eq_of_getLsbD_eq
  intro px hx
  simpa [Display.lit, Vector.getD, hy] using h px py hx hy

/-- One pixel of a sprite: on the screen a sprite bit of 1 flips its cell and collides with a lit one; off the
screen, or for a sprite bit of 0, nothing happens (R172 to R175). The screen is the configuration's, no larger than the
one State holds. -/
theorem drawPixel_spec_under {c : Config} (hw : c.dispW ≤ hardware.dispW) (hh : c.dispH ≤ hardware.dispH) (px py : Nat)
    (bit : Bool) (d : Blit) :
    (∀ qx qy, (drawPixel c px py bit d).display.lit qx qy =
      (d.display.lit qx qy ^^ decide (bit = true ∧ px < c.dispW ∧ py < c.dispH ∧ qx = px ∧ qy = py))) ∧
    (drawPixel c px py bit d).collide =
      (d.collide || (bit && decide (px < c.dispW ∧ py < c.dispH) && d.display.lit px py)) := by
  unfold drawPixel
  by_cases hclip : px ≥ c.dispW ∨ py ≥ c.dispH
  · rw [if_pos hclip]
    have hoff : ¬ (px < c.dispW ∧ py < c.dispH) := by omega
    refine ⟨fun qx qy => ?_, by simp [hoff]⟩
    have : ¬ (bit = true ∧ px < c.dispW ∧ py < c.dispH ∧ qx = px ∧ qy = py) := by omega
    simp [this]
  · rw [if_neg hclip]
    simp only [not_or, not_le, ge_iff_le] at hclip
    have hx := Nat.lt_of_lt_of_le hclip.1 hw
    have hy := Nat.lt_of_lt_of_le hclip.2 hh
    cases bit with
    | false => simp
    | true => exact ⟨fun qx qy => by simp [Display.lit_toggle d.display hx hy, hclip.1, hclip.2], by simp [hclip.1, hclip.2]⟩

/-- As `drawPixel_spec_under`, on this hardware's screen, off which no cell is lit. -/
theorem drawPixel_spec (px py : Nat) (bit : Bool) (d : Blit) :
    (∀ qx qy, (drawPixel hardware px py bit d).display.lit qx qy =
      (d.display.lit qx qy ^^ decide (bit = true ∧ px < hardware.dispW ∧ py < hardware.dispH ∧ qx = px ∧ qy = py))) ∧
    (drawPixel hardware px py bit d).collide = (d.collide || (bit && d.display.lit px py)) := by
  obtain ⟨hlit, hcol⟩ := drawPixel_spec_under (c := hardware) (le_refl _) (le_refl _) px py bit d
  refine ⟨hlit, hcol.trans ?_⟩
  by_cases hon : px < hardware.dispW ∧ py < hardware.dispH
  · simp [hon]
  · rw [Display.lit_outside d.display (by omega)]
    simp

end Sys2Proof.Machine
end

