-- ==== Sys2Proof/Laws/WellFormed.lean ====
section
/-! SUPPORT. Every operand type has the width of its field, so every instruction term is well-formed (R82). -/

namespace Sys2Proof

@[simp] theorem Field.fits_of {w : Nat} (b : BitVec w) : (Field.of b).fits = true :=
  decide_eq_true b.isLt

theorem Instr.wellFormed_all (i : Instr) : i.wellFormed = true := by
  cases i <;> simp [Instr.wellFormed, Instr.fields]

end Sys2Proof
end

