-- ==== Sys2Proof/Machine/Listing.lean ====
section
/-! DEFINITION. The assembler's spelling of an instruction (spec/30_encoding.md R87): labels only, no behaviour
depends on them. A word that is no instruction is written as raw data (R88). -/

namespace Sys2Proof.Machine

/-- One hexadecimal digit. -/
def hexDigit (n : Nibble) : String :=
  ["0", "1", "2", "3", "4", "5", "6", "7", "8", "9", "A", "B", "C", "D", "E", "F"].getD n.toNat ""

/-- A byte as two hexadecimal digits. -/
def hexByte (b : Byte) : String := hexDigit (b.extractLsb' 4 4) ++ hexDigit (b.extractLsb' 0 4)

/-- An address as three hexadecimal digits. -/
def hexAddress (a : Address) : String :=
  hexDigit (a.extractLsb' 8 4) ++ hexDigit (a.extractLsb' 4 4) ++ hexDigit (a.extractLsb' 0 4)

/-- A register: `V0` to `VF` (R87). -/
def regName (x : Nibble) : String := "V" ++ hexDigit x

/-- The listing of an instruction (R87). -/
def listing : Instr → String
  | .cls => "CLS"
  | .ret => "RET"
  | .jp nnn => "JP " ++ hexAddress nnn
  | .call nnn => "CALL " ++ hexAddress nnn
  | .seVxNn x nn => "SE " ++ regName x ++ ", " ++ hexByte nn
  | .sneVxNn x nn => "SNE " ++ regName x ++ ", " ++ hexByte nn
  | .seVxVy x y => "SE " ++ regName x ++ ", " ++ regName y
  | .ldVxNn x nn => "LD " ++ regName x ++ ", " ++ hexByte nn
  | .addVxNn x nn => "ADD " ++ regName x ++ ", " ++ hexByte nn
  | .ldVxVy x y => "LD " ++ regName x ++ ", " ++ regName y
  | .orVxVy x y => "OR " ++ regName x ++ ", " ++ regName y
  | .andVxVy x y => "AND " ++ regName x ++ ", " ++ regName y
  | .xorVxVy x y => "XOR " ++ regName x ++ ", " ++ regName y
  | .addVxVy x y => "ADD " ++ regName x ++ ", " ++ regName y
  | .subVxVy x y => "SUB " ++ regName x ++ ", " ++ regName y
  | .shrVx x _ => "SHR " ++ regName x
  | .subnVxVy x y => "SUBN " ++ regName x ++ ", " ++ regName y
  | .shlVx x _ => "SHL " ++ regName x
  | .sneVxVy x y => "SNE " ++ regName x ++ ", " ++ regName y
  | .ldINnn nnn => "LD I, " ++ hexAddress nnn
  | .jpV0Nnn nnn => "JP V0, " ++ hexAddress nnn
  | .rndVxNn x nn => "RND " ++ regName x ++ ", " ++ hexByte nn
  | .drwVxVyN x y n => "DRW " ++ regName x ++ ", " ++ regName y ++ ", " ++ hexDigit n
  | .skpVx x => "SKP " ++ regName x
  | .sknpVx x => "SKNP " ++ regName x
  | .ldVxDt x => "LD " ++ regName x ++ ", DT"
  | .ldVxK x => "LD " ++ regName x ++ ", K"
  | .ldDtVx x => "LD DT, " ++ regName x
  | .ldStVx x => "LD ST, " ++ regName x
  | .addIVx x => "ADD I, " ++ regName x
  | .ldFVx x => "LD F, " ++ regName x
  | .ldBVx x => "LD B, " ++ regName x
  | .ldMemVx x => "LD [I], " ++ regName x
  | .ldVxMem x => "LD " ++ regName x ++ ", [I]"

/-- The listing of a word: its instruction, or raw data (R87, R88). -/
def listingOfWord (op : Word) : String :=
  match decode op with
  | .ok i => listing i
  | .error _ => "DB 0x" ++ hexByte (highByte op) ++ ", 0x" ++ hexByte (lowByte op)

end Sys2Proof.Machine
end

