-- ==== Sys2Proof/Tests/Slice0.lean ====
section
/-! SUPPORT. The model's own tests. Expected results are those of spec/95_test_vectors.md (ids FE, CF, AL, IM, DR, KY, HT,
LO; "derived from this spec's rules, not from a run") and of the encodings of spec/30_encoding.md R84. At the end, one
witness for each statement with hypotheses: a concrete state and operands that meet them. -/

namespace Sys2Proof.Tests

open Sys2Proof Sys2Proof.Machine

/-! ### Helpers -/

/-- The state after one step of the word, placed where the next step fetches. -/
def stepped (op : Word) (s : State) : Option State :=
  match step (s.withFetchWord 16 op.toNat) with
  | .next t => some t
  | .fault _ => none
  | .refused _ => none

/-- The state after an instruction under other parameters than this hardware's. -/
def under (c : Config) (i : Instr) (s : State) : Option State :=
  match execUnder c i s with
  | .next t => some t
  | .fault _ => none
  | .refused _ => none

/-- The reset state with some registers written. -/
def withRegs (rs : List (Nibble × Byte)) : State :=
  rs.foldl (fun s r => s.setReg r.1 r.2) State.reset

/-- A state with bytes from an address. -/
def withBytes (a : Nat) (bs : List Byte) (s : State) : State := s.storeBytes a bs

/-- A state with a lit cell. -/
def withCell (px py : Nat) (s : State) : State := s.setDisplay (s.display.toggle px py)

/-- A state with a key down. -/
def withKey (k : Nat) (s : State) : State := s.setKey k true

/-- A state whose stack holds one entry everywhere, `n` of them in use. -/
def withStack (n : Fin (hardware.stackCapacity + 1)) (w : Word) (s : State) : State :=
  { s with sp := n, stack := Vector.replicate hardware.stackCapacity w }

/-- The latch as the triple of the spec's vectors: code, at, info. -/
def latch (s : State) : Option (Nat × Nat × Nat) :=
  s.fault.map (fun r => (r.code.number, r.site.toNat, r.info.toNat))

/-- How many cells are lit in a row. -/
def litInRow (s : State) (py : Nat) : List Nat := (List.range 64).filter (fun px => s.display.lit px py)

/-! ### Well-formedness: each check refuses an ill-formed term -/

theorem test_field_too_wide_refused : (Field.mk 16 4).fits = false ∧ (Field.mk 256 8).fits = false ∧
    (Field.mk 4096 12).fits = false := by decide
theorem test_field_at_its_bound_accepted : (Field.mk 15 4).fits = true ∧ (Field.mk 255 8).fits = true ∧
    (Field.mk 4095 12).fits = true := by decide
theorem test_assembler_writes_zero_in_the_ignored_field : (Instr.shrVx 1 2).isAssembled = false ∧
    (Instr.shlVx 1 2).isAssembled = false ∧ (Instr.shrVx 1 0).isAssembled = true := by decide

/-! ### Decoding: a word written out for every constructor (R84) -/

theorem test_decode_families_0_to_4 :
    decode 0b0000000011100000 = .ok .cls ∧ decode 0b0000000011101110 = .ok .ret ∧
    decode 0b0001001000110100 = .ok (.jp 0x234) ∧ decode 0b0010111111111110 = .ok (.call 0xFFE) ∧
    decode 0b0011101001000010 = .ok (.seVxNn 0xA 0x42) ∧ decode 0b0100010110000001 = .ok (.sneVxNn 5 0x81) := by
  decide
theorem test_decode_families_5_to_7 :
    decode 0b0101000111100000 = .ok (.seVxVy 1 0xE) ∧ decode 0b0110101000000101 = .ok (.ldVxNn 0xA 0x05) ∧
    decode 0b0111000111111111 = .ok (.addVxNn 1 0xFF) := by decide
theorem test_decode_family_8 :
    decode 0b1000000100100000 = .ok (.ldVxVy 1 2) ∧ decode 0b1000000100100001 = .ok (.orVxVy 1 2) ∧
    decode 0b1000000100100010 = .ok (.andVxVy 1 2) ∧ decode 0b1000000100100011 = .ok (.xorVxVy 1 2) ∧
    decode 0b1000000100100100 = .ok (.addVxVy 1 2) ∧ decode 0b1000000100100101 = .ok (.subVxVy 1 2) ∧
    decode 0b1000000100100110 = .ok (.shrVx 1 2) ∧ decode 0b1000000100100111 = .ok (.subnVxVy 1 2) ∧
    decode 0b1000000100101110 = .ok (.shlVx 1 2) := by decide
theorem test_decode_families_9_to_D :
    decode 0b1001000111100000 = .ok (.sneVxVy 1 0xE) ∧ decode 0b1010001011110000 = .ok (.ldINnn 0x2F0) ∧
    decode 0b1011111100000001 = .ok (.jpV0Nnn 0xF01) ∧ decode 0b1100001100001111 = .ok (.rndVxNn 3 0x0F) ∧
    decode 0b1101000100100101 = .ok (.drwVxVyN 1 2 5) := by decide
theorem test_decode_families_E_and_F :
    decode 0b1110000110011110 = .ok (.skpVx 1) ∧ decode 0b1110111110100001 = .ok (.sknpVx 0xF) ∧
    decode 0b1111001000000111 = .ok (.ldVxDt 2) ∧ decode 0b1111001000001010 = .ok (.ldVxK 2) ∧
    decode 0b1111001000010101 = .ok (.ldDtVx 2) ∧ decode 0b1111001000011000 = .ok (.ldStVx 2) ∧
    decode 0b1111001000011110 = .ok (.addIVx 2) ∧ decode 0b1111001000101001 = .ok (.ldFVx 2) ∧
    decode 0b1111001000110011 = .ok (.ldBVx 2) ∧ decode 0b1111001001010101 = .ok (.ldMemVx 2) ∧
    decode 0b1111001001100101 = .ok (.ldVxMem 2) := by decide
/-- FE1 to FE11. -/
theorem test_decode_unknown_opcodes :
    ([0x0000, 0x0123, 0x00E1, 0x00FF, 0x5121, 0x9121, 0x8128, 0x812F, 0xE19F, 0xF1FF, 0xF100] : List Word).all
      (fun op => decode op == .error .unknownOpcode) = true := by decide
theorem test_decode_bytes_high_byte_first : decodeBytes [0x6A, 0x05, 0x12] = .ok (.ldVxNn 0xA 0x05, [0x12]) ∧
    decodeBytes [0x6A] = .error .truncated := by decide
theorem test_decode_table_word : decodeTableWord 16 0x6A05 = some (.ldVxNn 0xA 0x05) ∧
    decodeTableWord 16 0x5121 = none := by decide

/-! ### The step cycle -/

/-- FE12, FE13 and FE14: the last pair fetches; above it the fetch latches. -/
theorem test_fetch_bound :
    (stepped 0x1200 { State.reset with pc := 0xFFE }).map (·.pc) = some 0x200 ∧
    latch (State.after { State.reset with pc := 0xFFF } .step) = some (5, 0xFFF, 0xFFF) ∧
    latch (State.after { State.reset with pc := 0x1000 } .step) = some (5, 0x1000, 0x1000) := by decide
/-- FE15: an odd address is fetched as it is. -/
theorem test_odd_fetch : (stepped 0x6A05 { State.reset with pc := 0x201 }).map (fun t => (t.reg 0xA, t.pc)) =
    some (0x05, 0x203) := by decide
/-- FE1 and FE5: an unknown opcode advances and does not skip. -/
theorem test_unknown_opcode_advances : (stepped 0x0000 State.reset).map (·.pc) = some 0x202 ∧
    (stepped 0x5121 (withRegs [(1, 7), (2, 7)])).map (·.pc) = some 0x202 := by decide
/-- FE16, FE17 and FE19: the latch is tested before the execution state. -/
theorem test_gate :
    (State.after { State.reset with fault := some ⟨.stackOverflow, 0x200, 0x200⟩ } .step).stepResponse =
      .err .stackOverflow ∧
    (State.after { State.reset with execState := .paused } .step).stepResponse = .ok ∧
    (State.after { State.reset with execState := .paused, fault := some ⟨.stackUnderflow, 0x300, 0x300⟩ } .step).stepResponse =
      .err .stackUnderflow := by decide
theorem test_with_fetch_word_is_run_first : (stepped 0x6A05 State.reset).map (fun t => (t.reg 0xA, t.pc)) =
    some (0x05, 0x202) := by decide

/-! ### Control transfer -/

/-- CF2 and CF1. -/
theorem test_ret : (stepped 0x00EE (withStack 2 0x30A State.reset)).map (fun t => (t.pc, t.sp, t.stack[1])) =
    some (0x30A, 1, 0x30A) := by decide
theorem test_ret_underflow : (stepped 0x00EE State.reset).map (fun t => (latch t, t.pc, t.sp)) =
    some (some (4, 0x200, 0x200), 0x200, 0) := by decide
/-- CF5 and CF6. -/
theorem test_jp : (stepped 0x1200 State.reset).map (·.pc) = some 0x200 ∧
    (stepped 0x1301 State.reset).map (·.pc) = some 0x301 := by decide
/-- CF8 and CF9. -/
theorem test_call : (stepped 0x2400 (withStack 11 0 State.reset)).map (fun t => (t.stack[11], t.sp, t.pc)) =
    some (0x202, 12, 0x400) := by decide
theorem test_call_overflow : (stepped 0x2400 (withStack 12 0 State.reset)).map (fun t => (latch t, t.pc, t.sp)) =
    some (some (3, 0x200, 0x200), 0x200, 12) := by decide
/-- R29: `STACK_CAPACITY` is a parameter; CF9's fault comes at the capacity of the configuration. -/
theorem test_call_overflow_at_capacity :
    (under { hardware with stackCapacity := 2 } (.call 0x400) (withStack 2 0 State.reset)).map latch =
      some (some (3, 0x200, 0x200)) ∧
    (under { hardware with stackCapacity := 2 } (.call 0x400) (withStack 1 0 State.reset)).map (fun t => (t.sp, t.pc)) =
      some (2, 0x400) := by decide
/-- CF12 and CF15. -/
theorem test_jp_v0 : (stepped 0xB300 (withRegs [(0, 0x02), (3, 0x50)])).map (·.pc) = some 0x302 ∧
    (stepped 0xBFFF (withRegs [(0, 0xFF)])).map (·.pc) = some 0x10FE := by decide
/-- CF16 and CF17. -/
theorem test_se_immediate : (stepped 0x3342 (withRegs [(3, 0x42)])).map (·.pc) = some 0x204 ∧
    (stepped 0x3341 (withRegs [(3, 0x42)])).map (·.pc) = some 0x202 := by decide
/-- CF19 and CF20. -/
theorem test_sne_immediate : (stepped 0x4341 (withRegs [(3, 0x42)])).map (·.pc) = some 0x204 ∧
    (stepped 0x4342 (withRegs [(3, 0x42)])).map (·.pc) = some 0x202 := by decide
/-- CF21 and CF22. -/
theorem test_se_registers : (stepped 0x5110 State.reset).map (·.pc) = some 0x204 ∧
    (stepped 0x5120 (withRegs [(1, 7), (2, 8)])).map (·.pc) = some 0x202 := by decide
/-- CF23 and CF24. -/
theorem test_sne_registers : (stepped 0x9110 State.reset).map (·.pc) = some 0x202 ∧
    (stepped 0x9120 (withRegs [(1, 7), (2, 8)])).map (·.pc) = some 0x204 := by decide

/-! ### Register loads and the ALU -/

/-- `V[1]` and VF after one step. -/
def v1f (op : Word) (s : State) : Option (Byte × Byte) := (stepped op s).map (fun t => (t.reg 1, t.reg 0xF))

/-- VF after an instruction under `FLAG_LAST = false` (R133). -/
def vfAlt (i : Instr) (s : State) : Option Byte := (under { hardware with flagLast := false } i s).map (·.reg 0xF)

/-- AL1 and AL2. -/
theorem test_ld_immediate : (stepped 0x6AFF State.reset).map (·.reg 0xA) = some 0xFF ∧
    (stepped 0x6F07 State.reset).map (·.reg 0xF) = some 0x07 := by decide
/-- AL3 and AL4. -/
theorem test_add_immediate : v1f 0x7101 (withRegs [(1, 0xFF), (0xF, 0x55)]) = some (0x00, 0x55) ∧
    v1f 0x7F01 (withRegs [(0xF, 0x10)]) = some (0, 0x11) := by decide
/-- AL5. -/
theorem test_ld_register : v1f 0x8F10 (withRegs [(1, 0x33)]) = some (0x33, 0x33) := by decide
/-- AL6. -/
theorem test_or : v1f 0x8121 (withRegs [(1, 0xF0), (2, 0x0F), (0xF, 0x55)]) = some (0xFF, 0x55) := by decide
/-- AL7. -/
theorem test_and : v1f 0x8122 (withRegs [(1, 0xF0), (2, 0x3C), (0xF, 0x55)]) = some (0x30, 0x55) := by decide
/-- AL7. -/
theorem test_xor : v1f 0x8123 (withRegs [(1, 0xF0), (2, 0x3C), (0xF, 0x55)]) = some (0xCC, 0x55) := by decide
/-- AL9, AL10 and AL12. -/
theorem test_add : v1f 0x8124 (withRegs [(1, 0xFF), (2, 0x01)]) = some (0x00, 1) ∧
    v1f 0x8124 (withRegs [(1, 0xFF), (2, 0xFF)]) = some (0xFE, 1) ∧
    v1f 0x81F4 (withRegs [(1, 0x10), (0xF, 0xF0)]) = some (0x00, 1) := by decide
/-- AL13 and AL14, with the other order of R133. -/
theorem test_add_into_vf : v1f 0x8F24 (withRegs [(0xF, 0xFF), (2, 1)]) = some (0, 1) ∧
    v1f 0x8F24 (withRegs [(0xF, 0x10), (2, 0x20)]) = some (0, 0) ∧
    vfAlt (.addVxVy 0xF 2) (withRegs [(0xF, 0xFF), (2, 1)]) = some 0x00 ∧
    vfAlt (.addVxVy 0xF 2) (withRegs [(0xF, 0x10), (2, 0x20)]) = some 0x30 := by decide
/-- AL16, AL17 and AL19. -/
theorem test_sub : v1f 0x8125 (withRegs [(1, 0x03), (2, 0x05)]) = some (0xFE, 0) ∧
    v1f 0x8125 (withRegs [(1, 0x07), (2, 0x07)]) = some (0x00, 1) ∧
    v1f 0x81F5 (withRegs [(1, 0x05), (0xF, 0x06)]) = some (0xFF, 0) := by decide
/-- AL20 and AL21. -/
theorem test_sub_into_vf : v1f 0x8F25 (withRegs [(0xF, 5), (2, 3)]) = some (0, 1) ∧
    v1f 0x8FF5 (withRegs [(0xF, 5)]) = some (0, 1) ∧
    vfAlt (.subVxVy 0xF 2) (withRegs [(0xF, 5), (2, 3)]) = some 0x02 := by decide
/-- AL23, AL24 and AL26: the Y field is ignored. -/
theorem test_shr : v1f 0x8106 (withRegs [(1, 0xFF)]) = some (0x7F, 1) ∧
    v1f 0x8106 (withRegs [(1, 0x80)]) = some (0x40, 0) ∧
    v1f 0x8126 (withRegs [(1, 0x02), (2, 0xFF)]) = some (0x01, 0) := by decide
/-- AL27 and AL28. -/
theorem test_shr_vf : v1f 0x8F06 (withRegs [(0xF, 2)]) = some (0, 0) ∧
    v1f 0x8F06 (withRegs [(0xF, 3)]) = some (0, 1) ∧
    vfAlt (.shrVx 0xF 0) (withRegs [(0xF, 2)]) = some 0x01 := by decide
/-- AL29 and AL30. -/
theorem test_subn : v1f 0x8127 (withRegs [(1, 0x03), (2, 0x05)]) = some (0x02, 1) ∧
    v1f 0x8127 (withRegs [(1, 0x05), (2, 0x03)]) = some (0xFE, 0) := by decide
/-- AL32. -/
theorem test_subn_into_vf : v1f 0x8F27 (withRegs [(0xF, 5), (2, 3)]) = some (0, 0) ∧
    vfAlt (.subnVxVy 0xF 2) (withRegs [(0xF, 5), (2, 3)]) = some 0xFE := by decide
/-- AL34, AL35 and AL36. -/
theorem test_shl : v1f 0x810E (withRegs [(1, 0x7F)]) = some (0xFE, 0) ∧
    v1f 0x810E (withRegs [(1, 0xFF)]) = some (0xFE, 1) ∧
    v1f 0x813E (withRegs [(1, 0x01), (3, 0x80)]) = some (0x02, 0) := by decide
/-- AL37 and AL38. -/
theorem test_shl_vf : v1f 0x8F0E (withRegs [(0xF, 0x40)]) = some (0, 0) ∧
    v1f 0x8F0E (withRegs [(0xF, 0x80)]) = some (0, 1) ∧
    vfAlt (.shlVx 0xF 0) (withRegs [(0xF, 0x40)]) = some 0x80 := by decide
/-- AL39: whatever the oracle answers, a zero mask gives zero. -/
theorem test_rnd_zero_mask : (execRndVxNn 0 0 State.reset) =
    .next { State.reset with v := State.reset.v.set 0 (Config.randomByte 0 &&& 0), pc := 0x202, draws := 1 } ∧
    Config.randomByte 0 &&& 0 = 0 := ⟨rfl, BitVec.and_zero⟩

/-! ### The index register and the transfers through it -/

/-- IM1 and IM2. -/
theorem test_ld_i : (stepped 0xAFFF State.reset).map (·.i) = some 0xFFF ∧
    (stepped 0xA000 { State.reset with i := 5 }).map (·.i) = some 0 := by decide
/-- IM3, IM4 and IM5. -/
theorem test_add_i :
    (stepped 0xF11E { withRegs [(1, 1)] with i := 0xFFF }).map (fun t => (t.i, t.reg 0xF)) = some (0, 0) ∧
    (stepped 0xF11E { withRegs [(1, 0xFF)] with i := 0xF80 }).map (·.i) = some 0x07F ∧
    (stepped 0xFF1E { withRegs [(0xF, 3)] with i := 0x010 }).map (·.i) = some 0x013 := by decide
/-- IM6 and IM7: the two other policies. -/
theorem test_add_i_other_policies :
    (under { hardware with fx1ePolicy := .wrap65536 } (.addIVx 1) { withRegs [(1, 1)] with i := 0xFFF }).map
      (fun t => (t.i, t.reg 0xF)) = some (0x1000, 0) ∧
    (under { hardware with fx1ePolicy := .flag4096 } (.addIVx 1) { withRegs [(1, 1)] with i := 0xFFF }).map
      (fun t => (t.i, t.reg 0xF)) = some (0, 1) := by decide
/-- IM9, IM10 and IM11. -/
theorem test_ld_f : (stepped 0xF129 (withRegs [(1, 0x0F)])).map (·.i) = some 0x04B ∧
    (stepped 0xF129 (withRegs [(1, 0x10)])).map (·.i) = some 0x050 ∧
    (stepped 0xF129 (withRegs [(1, 0xFF)])).map (·.i) = some 0x4FB := by decide
/-- IM16. -/
theorem test_ld_b : (stepped 0xF133 { withRegs [(1, 123)] with i := 0xFFD }).map
    (fun t => [t.byteAt 0xFFD, t.byteAt 0xFFE, t.byteAt 0xFFF]) = some [1, 2, 3] := by decide
/-- IM17. -/
theorem test_ld_b_outside : (stepped 0xF133 { withRegs [(1, 123)] with i := 0xFFE }).map
    (fun t => (latch t, t.byteAt 0xFFE, t.byteAt 0xFFF)) = some (some (5, 0x200, 0x1000), 0, 0) := by decide
/-- IM19 and IM22: the font is overwritten without a fault. -/
theorem test_ld_mem_vx :
    (stepped 0xF055 { withRegs [(0, 0xAB), (1, 0xCD)] with i := 0x300 }).map
      (fun t => (t.byteAt 0x300, t.byteAt 0x301, t.i)) = some (0xAB, 0, 0x300) ∧
    (stepped 0xF155 (withRegs [(0, 0x11), (1, 0x22)])).map (fun t => [t.byteAt 0, t.byteAt 1, t.byteAt 2]) =
      some [0x11, 0x22, 0x90] := by decide
/-- IM21. -/
theorem test_ld_mem_vx_outside : (stepped 0xFF55 { State.reset with i := 0xFF1 }).map
    (fun t => (latch t, t.byteAt 0xFFF)) = some (some (5, 0x200, 0x1000), 0) := by decide
/-- IM24 and IM23: the first bytes of the font. -/
theorem test_ld_vx_mem :
    (stepped 0xF265 { withBytes 0x400 [0x11, 0x22, 0x33] (withRegs [(3, 0x99)]) with i := 0x400 }).map
      (fun t => ([t.reg 0, t.reg 1, t.reg 2, t.reg 3], t.i)) = some ([0x11, 0x22, 0x33, 0x99], 0x400) ∧
    (stepped 0xFF65 State.reset).map (fun t => t.v.toList) = some [0xF0, 0x90, 0x90, 0x90, 0xF0, 0x20, 0x60, 0x20,
      0x20, 0x70, 0xF0, 0x10, 0xF0, 0x80, 0xF0, 0xF0] := by decide
/-- IM25. -/
theorem test_ld_vx_mem_outside : (stepped 0xF265 { withRegs [(0, 7)] with i := 0xFFE }).map
    (fun t => (latch t, t.reg 0)) = some (some (5, 0x200, 0x1000), 7) := by decide

/-! ### The framebuffer -/

/-- DR1. -/
theorem test_cls : (stepped 0x00E0 (withCell 0 0 (withCell 63 31 (withRegs [(0xF, 0x55)])))).map
    (fun t => (t.display == Display.clear, t.reg 0xF)) = some (true, 0x55) := by decide
/-- DR2, DR3 and DR16: the start wraps, the rest is clipped, a lit cell collides. -/
theorem test_drw :
    (stepped 0xD011 { withBytes 0x300 [0x80] (withRegs [(0, 0x46), (1, 0x28)]) with i := 0x300 }).map
      (fun t => (litInRow t 8, t.reg 0xF)) = some ([6], 0) ∧
    (stepped 0xD011 { withBytes 0x300 [0xFF] (withRegs [(0, 0x3C)]) with i := 0x300 }).map
      (fun t => (litInRow t 0, t.reg 0xF)) = some ([60, 61, 62, 63], 0) ∧
    (stepped 0xD231 { withCell 63 0 (withBytes 0x300 [0x7F] (withRegs [(2, 0x3E)])) with i := 0x300 }).map
      (fun t => (litInRow t 0, t.reg 0xF)) = some ([], 1) := by decide
/-- DR12 and DR8: a clipped row is still checked; no row reads nothing. -/
theorem test_drw_range :
    (stepped 0xD012 { withRegs [(1, 0x1F)] with i := 0xFFF }).map latch = some (some (5, 0x200, 0x1000)) ∧
    (stepped 0xD010 { withRegs [(0xF, 1)] with i := 0xFFF }).map (fun t => (latch t, t.reg 0xF)) =
      some (none, 0) := by decide
/-- DR15: glyph 0 of the font. -/
theorem test_draw_glyph_zero : (stepped 0xD015 State.reset).map (fun t => (List.range 6).map (litInRow t)) =
    some [[0, 1, 2, 3], [0, 3], [0, 3], [0, 3], [0, 1, 2, 3], []] := by decide

/-! ### Keypad and timers -/

/-- KY1, KY2 and KY3. -/
theorem test_skp : (stepped 0xE19E (withKey 5 (withRegs [(1, 5)]))).map (·.pc) = some 0x204 ∧
    (stepped 0xE19E (withRegs [(1, 5)])).map (·.pc) = some 0x202 ∧
    (stepped 0xE19E (withKey 15 (withRegs [(1, 15)]))).map (·.pc) = some 0x204 := by decide
/-- KY4, with the other policy. -/
theorem test_skp_no_key : (stepped 0xE19E (withKey 0 (withRegs [(1, 0x10)]))).map latch =
      some (some (5, 0x200, 0x10)) ∧
    (under { hardware with keyIndexPolicy := .mask } (.skpVx 1) (withKey 0 (withRegs [(1, 0x10)]))).map (·.pc) =
      some 0x204 := by decide
/-- KY5. -/
theorem test_sknp : (stepped 0xE1A1 (withRegs [(1, 5)])).map (·.pc) = some 0x204 ∧
    (stepped 0xE1A1 (withKey 5 (withRegs [(1, 5)]))).map (·.pc) = some 0x202 := by decide
/-- KY8 and KY10. -/
theorem test_ld_k : (stepped 0xF10A (withKey 9 (withKey 2 State.reset))).map (fun t => (t.reg 1, t.pc)) =
      some (2, 0x202) ∧
    (stepped 0xFF0A (withKey 3 State.reset)).map (·.reg 0xF) = some 3 := by decide
/-- KY7 and KY11: key F is not scanned, but is under the fixed variant. -/
theorem test_ld_k_waits : (stepped 0xF10A (withKey 15 State.reset)).map (fun t => (t.reg 1, t.pc)) =
      some (0, 0x200) ∧
    (under { hardware with fx0aScanEnd := 0x10 } (.ldVxK 1) (withKey 15 State.reset)).map
      (fun t => (t.reg 1, t.pc)) = some (0x0F, 0x202) := by decide
/-- KY12. -/
theorem test_ld_vx_dt : (stepped 0xF207 { State.reset with dt := 0x3C }).map (·.reg 2) = some 0x3C := by decide
/-- KY13. -/
theorem test_ld_dt_vx : (stepped 0xF215 { State.reset with dt := 7 }).map (·.dt) = some 0 ∧
    (stepped 0xF215 (withRegs [(2, 9)])).map (fun t => (t.dt, t.st)) = some (9, 0) := by decide
/-- KY14. -/
theorem test_ld_st_vx : (stepped 0xF218 (withRegs [(2, 1)])).map (fun t => (t.st, t.dt, t.soundActive)) =
    some (1, 0, false) := by decide

/-! ### Host transactions, load, listing -/

/-- HT3 and HT5. -/
theorem test_tick : (State.tickTimers { State.reset with st := 1 }).soundActive = true ∧
    (State.reset.afterAll [.tickTimers]).soundActive = false ∧
    (({ State.reset with dt := 2, st := 1, execState := .paused }).raise .addressOutOfRange 0xFFF).tickTimers.dt = 1 := by
  decide
/-- HT6 and HT7. -/
theorem test_set_key : (State.reset.after (.setKey 3 true)).keyDown 3 = true ∧
    State.reset.after (.setKey 16 true) = State.reset := by decide
/-- HT8 and HT9. -/
theorem test_run_states : (State.reset.afterAll [.pause]).execState = .paused ∧
    (State.reset.afterAll [.pause, .resume]).execState = .running ∧
    (State.reset.afterAll [.pause, .quit, .resume]).execState = .halted := by decide
/-- The host reads the record of a fault: CF1's `(4, 0x200, 0x200)` (R42, R216). -/
theorem test_read_fault :
    transact .readFault (State.reset.raise .stackUnderflow 0x200) =
      .next (State.reset.raise .stackUnderflow 0x200, .latch (some ⟨.stackUnderflow, 0x200, 0x200⟩)) ∧
    transact .readFault State.reset = .next (State.reset, .latch none) := ⟨rfl, rfl⟩
/-- LO4 and LO5. -/
theorem test_load :
    ((load 0 (some [0xAA, 0xBB, 0xCC])).toOption.map
      (fun s => [s.byteAt 0x1FF, s.byteAt 0x200, s.byteAt 0x201, s.byteAt 0x202, s.byteAt 0x203])) =
      some [0, 0xAA, 0xBB, 0xCC, 0] ∧
    load 0 none = .error .romUnreadable := by decide
/-- R87's spellings, and raw data (R88). -/
theorem test_listing : listingOfWord 0x6A05 = "LD VA, 05" ∧ listingOfWord 0xD125 = "DRW V1, V2, 5" ∧
    listingOfWord 0xF265 = "LD V2, [I]" ∧ listingOfWord 0x0123 = "DB 0x01, 0x23" := by decide

/-! ### Witnesses: for each statement with hypotheses, a state and operands that meet them together -/

/-- The reset state with a word at 0x200, ready to run it. -/
def placed (op : Word) : State := State.reset.withFetchWord 16 op.toNat

theorem test_witness_DecodeEncodeRoundTrip : (Instr.drwVxVyN 0xF 0xE 5).wellFormed = true ∧
    (Instr.jp 0xFFF).wellFormed = true := by decide

theorem test_witness_EncodeDecodeRoundTrip : decode 0x8FE6 = .ok (.shrVx 0xF 0xE) ∧
    decode 0x00EE = .ok .ret := by decide

/-- One word for each of the 34 clauses, with operand bits set where the row has any. -/
theorem test_witness_EachTableRowDecodes :
    ([(0x00E0, 0x00E0, 0xFFFF), (0x00EE, 0x00EE, 0xFFFF), (0x1FFF, 0x1000, 0xF000), (0x2FFF, 0x2000, 0xF000),
      (0x3FFF, 0x3000, 0xF000), (0x4FFF, 0x4000, 0xF000), (0x5FF0, 0x5000, 0xF00F), (0x6FFF, 0x6000, 0xF000),
      (0x7FFF, 0x7000, 0xF000)] : List (Word × Word × Word)).all (fun c => c.1 &&& c.2.2 == c.2.1) = true ∧
    ([(0x8FF0, 0x8000, 0xF00F), (0x8FF1, 0x8001, 0xF00F), (0x8FF2, 0x8002, 0xF00F), (0x8FF3, 0x8003, 0xF00F),
      (0x8FF4, 0x8004, 0xF00F), (0x8FF5, 0x8005, 0xF00F), (0x8FF6, 0x8006, 0xF00F), (0x8FF7, 0x8007, 0xF00F),
      (0x8FFE, 0x800E, 0xF00F), (0x9FF0, 0x9000, 0xF00F), (0xAFFF, 0xA000, 0xF000), (0xBFFF, 0xB000, 0xF000),
      (0xCFFF, 0xC000, 0xF000), (0xDFFF, 0xD000, 0xF000)] : List (Word × Word × Word)).all
        (fun c => c.1 &&& c.2.2 == c.2.1) = true ∧
    ([(0xEF9E, 0xE09E, 0xF0FF), (0xEFA1, 0xE0A1, 0xF0FF), (0xFF07, 0xF007, 0xF0FF), (0xFF0A, 0xF00A, 0xF0FF),
      (0xFF15, 0xF015, 0xF0FF), (0xFF18, 0xF018, 0xF0FF), (0xFF1E, 0xF01E, 0xF0FF), (0xFF29, 0xF029, 0xF0FF),
      (0xFF33, 0xF033, 0xF0FF), (0xFF55, 0xF055, 0xF0FF), (0xFF65, 0xF065, 0xF0FF)] : List (Word × Word × Word)).all
        (fun c => c.1 &&& c.2.2 == c.2.1) = true := by decide

/-- No row selects the word, checked row by row. -/
theorem none_selects {op : Word} (h : opcodeTable.all (fun r => !selects r op) = true) :
    ∀ r ∈ opcodeTable, selects r op = false := by
  simpa [List.all_eq_true] using h

theorem test_witness_UnknownExactlyWhereNoRowSelects : decode 0x5121 = .error .unknownOpcode ∧
    (∀ r ∈ opcodeTable, selects r 0x5121 = false) := ⟨rfl, none_selects (by decide)⟩

theorem test_witness_TableRowsDoNotOverlap : ((0x8006, 0xF00F) : Word × Word) ∈ opcodeTable ∧
    selects (0x8006, 0xF00F) 0x8FE6 = true := by decide

/-- At `pc` 0x200, and at 0xFFE, the last address that fetches. -/
theorem test_witness_StepRunsDecodedInstruction :
    (placed 0x6A05).Ready ∧ decode (placed 0x6A05).opcodeAtPc = .ok (.ldVxNn 0xA 0x05) ∧
    (Instr.ldVxNn 0xA 0x05).wellFormed = true ∧
    State.Ready { State.reset with pc := 0xFFE } ∧ ¬ State.Ready { State.reset with pc := 0xFFF } := by decide

/-- The reset state itself has an unknown opcode at `pc`. -/
theorem test_witness_UnknownOpcodeStepOnlyAdvances : State.reset.Ready ∧
    ∀ r ∈ opcodeTable, selects r State.reset.opcodeAtPc = false := ⟨by decide, none_selects (by decide)⟩

theorem test_witness_GateHoldsTheStep :
    (State.reset.raise .stackOverflow 0x200).fault = some ⟨.stackOverflow, 0x200, 0x200⟩ ∧
    State.reset.pause.fault = none ∧ State.reset.pause.execState ≠ .running ∧
    State.reset.quit.fault = none ∧ State.reset.quit.execState ≠ .running := by decide

/-- At the lowest `pc` that does not fetch, and at the highest `pc` of a run. -/
theorem test_witness_FetchOverrunLatches :
    State.reset.fault = none ∧ State.reset.execState = .running ∧
    hardware.memSize ≤ (State.jump 0xFFF State.reset).pc.toNat + 1 ∧
    hardware.memSize ≤ (State.jump 0x10FE State.reset).pc.toNat + 1 := by decide

/-- A jump to itself, and a jump to 0xFFF. -/
theorem test_witness_JumpResult : (0x1234 : Word) &&& 0xF000 = 0x1000 ∧
    (0x200 : Address).toNat = State.reset.pc.toNat ∧ hardware.memSize ≤ (0xFFF : Address).toNat + 1 ∧
    State.reset.fault = none ∧ State.reset.execState = .running := by
  decide

theorem test_witness_CallResult : (withStack 11 0 State.reset).sp.val < hardware.stackCapacity ∧
    (withStack 12 0 State.reset).sp.val = hardware.stackCapacity ∧ State.reset.sp.val < hardware.stackCapacity := by decide

theorem test_witness_ReturnResult : 0 < (withStack 1 0 State.reset).sp.val ∧ 0 < (withStack 12 0 State.reset).sp.val ∧
    State.reset.sp.val = 0 := by decide

theorem test_witness_ReturnUndoesCall : (withStack 11 0x300 State.reset).sp.val < hardware.stackCapacity := by decide

theorem test_witness_ImmediateSkipResult : (0x3342 : Word) &&& 0xF000 = 0x3000 ∧ (0x4341 : Word) &&& 0xF000 = 0x4000 := by
  decide

theorem test_witness_LoadImmediateResult : (0x6A05 : Word) &&& 0xF000 = 0x6000 := by decide

theorem test_witness_AddImmediateResult : (0x7103 : Word) &&& 0xF000 = 0x7000 := by decide

theorem test_witness_CopyRegisterResult : (0x8120 : Word) &&& 0xF00F = 0x8000 := by decide

/-- A destination that is not VF; the statements hold for X = VF without this hypothesis. -/
theorem test_witness_AddRegistersResult : (1 : Nibble) ≠ 0xF := by decide
theorem test_witness_SubtractRegistersResult : (0xE : Nibble) ≠ 0xF := by decide
theorem test_witness_ShiftResult : (0 : Nibble) ≠ 0xF := by decide

theorem test_witness_RandomByteResult : (0x7F : Byte).getLsbD 7 = false ∧ (0x00 : Byte).getLsbD 0 = false := by decide

theorem test_witness_LoadIndexResult : (0xA2F0 : Word) &&& 0xF000 = 0xA000 := by decide

theorem test_witness_GlyphAddressResult : (0xF429 : Word) &&& 0xF0FF = 0xF029 := by decide

/-- The last `I` at which three bytes fit. -/
theorem test_witness_DecimalDigitsStored : (State.setIndex 0xFFD State.reset).i.toNat + 2 < hardware.memSize := by decide

theorem test_witness_RegistersStored : (State.setIndex 0xFF0 State.reset).i.toNat + (15 : Nibble).toNat < hardware.memSize ∧
    (15 : Nibble).toNat ≤ (15 : Nibble).toNat := by decide

theorem test_witness_RegistersLoaded : (State.setIndex 0xFFD State.reset).i.toNat + (2 : Nibble).toNat < hardware.memSize ∧
    (2 : Nibble).toNat ≤ (2 : Nibble).toNat ∧ (2 : Nibble).toNat < (3 : Nibble).toNat := by decide

theorem test_witness_LoadAfterStoreRestoresRegisters :
    (State.setIndex 0xFFC (withRegs [(0, 1), (3, 9)])).i.toNat + (3 : Nibble).toNat < hardware.memSize ∧
    (3 : Nibble).toNat ≤ (3 : Nibble).toNat := by decide

/-- Each clause at the first address that does not fit, and with `I` above 0xFFF. -/
theorem test_witness_TransferOutOfRangeLatches :
    hardware.memSize ≤ (State.setIndex 0xFFE State.reset).i.toNat + 2 ∧
    hardware.memSize ≤ (State.setIndex 0xFF1 State.reset).i.toNat + (15 : Nibble).toNat ∧
    hardware.memSize ≤ (State.setIndex 0x1000 State.reset).i.toNat + (0 : Nibble).toNat ∧
    0 < (15 : Nibble).toNat ∧
    hardware.memSize ≤ (State.setIndex 0xFF2 State.reset).i.toNat + (15 : Nibble).toNat - 1 := by decide

theorem test_witness_ClearScreenResult : (0x00E0 : Word) &&& 0xFFFF = 0x00E0 := by decide

/-- No row with `I` at its highest, and fifteen rows that end at 0xFFF. -/
theorem test_witness_DrawXorsClippedSprite : (0 : Nibble).toNat = 0 ∧
    (State.setIndex 0xFF1 State.reset).i.toNat + (15 : Nibble).toNat ≤ hardware.memSize := by decide

/-- Glyph 0 on a clear screen. -/
theorem test_witness_DrawTwiceRestoresDisplay : (0 : Nibble) ≠ 0xF ∧ (1 : Nibble) ≠ 0xF ∧
    State.reset.i.toNat + (5 : Nibble).toNat ≤ hardware.memSize ∧ (∀ px py, State.reset.display.lit px py = false) ∧
    State.reset.spriteBit ((State.reset.reg 0).toNat % hardware.dispW) ((State.reset.reg 1).toNat % hardware.dispH)
      (5 : Nibble).toNat 0 0 = true :=
  ⟨by decide, by decide, by decide, Display.lit_clear, by decide⟩

/-- Key numbers 15 and 16. -/
theorem test_witness_KeySkipResult : ((withRegs [(1, 15)]).reg 1).toNat < hardware.numKeys ∧
    hardware.numKeys ≤ ((withRegs [(1, 16)]).reg 1).toNat := by
  decide

/-- Key 0xE, the last one scanned, with no lower key; and key 0xF alone. -/
theorem test_witness_WaitForKeyResult : (0xF20A : Word) &&& 0xF0FF = 0xF00A ∧
    14 < hardware.fx0aScanEnd ∧ (withKey 14 State.reset).keyDown 14 = true ∧ (∀ j < 14, (withKey 14 State.reset).keyDown j = false) ∧
    (∀ k < hardware.fx0aScanEnd, (withKey 15 State.reset).keyDown k = false) := by decide

theorem test_witness_WaitingStepRepeats : (placed 0xF10A).Ready ∧
    decode (placed 0xF10A).opcodeAtPc = .ok (.ldVxK 1) ∧ (∀ k < hardware.fx0aScanEnd, (placed 0xF10A).keyDown k = false) := by decide

theorem test_witness_TimerTransferResult : (0xF207 : Word) &&& 0xF0FF = 0xF007 ∧ (0xF215 : Word) &&& 0xF0FF = 0xF015 ∧
    (0xF218 : Word) &&& 0xF0FF = 0xF018 := by decide

/-- A return from an empty stack changes the latch. -/
theorem test_witness_ErrorsArePrecise : step (placed 0x00EE) = .next ((placed 0x00EE).raise .stackUnderflow 0x200) ∧
    ((placed 0x00EE).raise .stackUnderflow 0x200).fault ≠ (placed 0x00EE).fault := ⟨rfl, by decide⟩

theorem test_witness_LatchedFaultIsFinal :
    (State.reset.raise .stackOverflow 0x200).fault = some ⟨.stackOverflow, 0x200, 0x200⟩ ∧
    ∀ source, Transaction.load source ∉ [Transaction.step, .tickTimers, .setKey 3 true, .pause] :=
  ⟨rfl, by simp⟩

theorem test_witness_OnlyListedInstructionsRaise : (Instr.jp 0x300).mayRaise = false ∧
    ∃ t, exec (.jp 0x300) State.reset = .next t := ⟨rfl, _, rfl⟩

theorem test_witness_RegistersFrame : (Instr.addVxVy 1 2).writesReg 2 = false ∧ (Instr.ldVxMem 2).writesReg 3 = false ∧
    (∃ t, exec (.addVxVy 1 2) State.reset = .next t) ∧ ∃ t, exec (.ldVxMem 2) State.reset = .next t :=
  ⟨rfl, rfl, ⟨_, rfl⟩, ⟨_, rfl⟩⟩

/-- The byte just below, and the byte just above, what FX33 stores. -/
theorem test_witness_MemoryFrame : (∃ t, exec (.ldBVx 1) (State.setIndex 0x300 State.reset) = .next t) ∧
    0x2FF < (State.setIndex 0x300 State.reset).i.toNat ∧
    (State.setIndex 0x300 State.reset).i.toNat + (Instr.ldBVx 1).storedBytes ≤ 0x303 :=
  ⟨⟨_, rfl⟩, by decide, by decide⟩

theorem test_witness_DisplayFrame : (∃ t, exec (.jp 0x300) State.reset = .next t) ∧ Instr.jp 0x300 ≠ .cls ∧
    ∀ x y n, Instr.jp 0x300 ≠ .drwVxVyN x y n := ⟨⟨_, rfl⟩, by decide, by simp⟩

theorem test_witness_StackFrame : (∃ t, exec .cls State.reset = .next t) ∧ Instr.cls ≠ .ret ∧
    ∀ nnn, Instr.cls ≠ .call nnn := ⟨⟨_, rfl⟩, by decide, by simp⟩

theorem test_witness_IndexAndTimerFrame : (∃ t, exec .cls State.reset = .next t) ∧
    (∀ nnn, Instr.cls ≠ .ldINnn nnn) ∧ (∀ x, Instr.cls ≠ .addIVx x) ∧ (∀ x, Instr.cls ≠ .ldFVx x) ∧
    (∀ x, Instr.cls ≠ .ldDtVx x) ∧ (∀ x, Instr.cls ≠ .ldStVx x) := ⟨⟨_, rfl⟩, by simp, by simp, by simp, by simp, by simp⟩

theorem test_witness_HostSideFrame : (∃ t, exec .cls State.reset = .next t) ∧ ∀ x nn, Instr.cls ≠ .rndVxNn x nn :=
  ⟨⟨_, rfl⟩, by simp⟩

theorem test_witness_SoundAndRunStateAreUnread : ∃ t, exec (.ldStVx 1) State.reset = .next t := ⟨_, rfl⟩

/-- The same live entry, other stale entries. -/
theorem test_witness_StaleStackEntriesAreUnread :
    SameLiveStack { withStack 1 0x300 State.reset with stack := (Vector.replicate 12 (0 : Word)).set 0 0x300 }
      (withStack 1 0x300 State.reset) ∧
    ∃ t, exec .ret { withStack 1 0x300 State.reset with stack := (Vector.replicate 12 (0 : Word)).set 0 0x300 } = .next t :=
  ⟨by decide, _, rfl⟩

theorem test_witness_StepKeepsInvariant : (placed 0x6A05).Inv ∧
    step (placed 0x6A05) = .next ((placed 0x6A05).advance.setReg 0xA 0x05) := ⟨by decide, rfl⟩

theorem test_witness_SchedulesKeepInvariant : (placed 0x6A05).Inv := by decide

theorem test_witness_HostInputsResult : 15 < hardware.numKeys ∧ hardware.numKeys ≤ 16 ∧ State.reset.execState = .running ∧
    State.reset.pause.execState = .paused ∧ State.reset.quit.execState = .halted := by decide

/-- ROMs of 3585 and of 3584 bytes. -/
theorem test_witness_LoadSizeLimit : hardware.romMax < (List.replicate 3585 (0xAA : Byte)).length ∧
    (List.replicate 3584 (0xAA : Byte)).length = hardware.romMax := by
  rw [List.length_replicate, List.length_replicate]
  decide

theorem test_witness_LoadLeavesResetState : (List.replicate 3584 (0xAA : Byte)).length ≤ hardware.romMax ∧
    ([] : List Byte).length ≤ hardware.romMax := by
  rw [List.length_replicate]
  decide

end Sys2Proof.Tests
end

section
/-! PROOFS. Encoding (spec/30_encoding.md): a decoded word is the encoding of its instruction, so it selects a row of
the opcode table; a word that selects none is a no-op at the step. -/

namespace Sys2Proof

/-! ### A word rebuilt from its fixed nibbles and its fields -/

theorem formatA_of_major {op : Word} {m : Nibble} (h : majorOf op = m) : formatA m (nnnOf op) = op :=
  h ▸ formatA_fields op

theorem formatXNN_of_major {op : Word} {m : Nibble} (h : majorOf op = m) : formatXNN m (xOf op) (nnOf op) = op :=
  h ▸ formatXNN_fields op

theorem formatXYN_of_major_n {op : Word} {m n : Nibble} (hm : majorOf op = m) (hn : nOf op = n) :
    formatXYN m (xOf op) (yOf op) n = op :=
  hm ▸ hn ▸ formatXYN_fields op

/-! ### The families of the decoder, undone by the encoder -/

theorem encode_of_decodeFamily0 {nnn : Address} {i : Instr} (h : decodeFamily0 nnn = .ok i) :
    encode i = formatA 0x0 nnn := by
  unfold decodeFamily0 at h
  iterate 2
    obtain ⟨rfl, h⟩ | ⟨-, h⟩ := ite_eq_iff.1 h
    · cases h; rfl
  cases h

theorem encode_of_decodeFamily8 {x y n : Nibble} {i : Instr} (h : decodeFamily8 x y n = .ok i) :
    encode i = formatXYN 0x8 x y n := by
  unfold decodeFamily8 at h
  iterate 9
    obtain ⟨rfl, h⟩ | ⟨-, h⟩ := ite_eq_iff.1 h
    · cases h; rfl
  cases h

theorem encode_of_decodeFamilyE {x : Nibble} {nn : Byte} {i : Instr} (h : decodeFamilyE x nn = .ok i) :
    encode i = formatXNN 0xE x nn := by
  unfold decodeFamilyE at h
  iterate 2
    obtain ⟨rfl, h⟩ | ⟨-, h⟩ := ite_eq_iff.1 h
    · cases h; rfl
  cases h

theorem encode_of_decodeFamilyF {x : Nibble} {nn : Byte} {i : Instr} (h : decodeFamilyF x nn = .ok i) :
    encode i = formatXNN 0xF x nn := by
  unfold decodeFamilyF at h
  iterate 9
    obtain ⟨rfl, h⟩ | ⟨-, h⟩ := ite_eq_iff.1 h
    · cases h; rfl
  cases h

/-- A decoded word is the encoding of its instruction, family by family (R76, R80). -/
theorem encode_of_decode {op : Word} {i : Instr} (h : decode op = .ok i) : encode i = op := by
  unfold decode at h
  dsimp only at h
  obtain ⟨hm, h⟩ | ⟨h0, h⟩ := ite_eq_iff.1 h
  · rw [encode_of_decodeFamily0 h, formatA_of_major hm]
  obtain ⟨hm, h⟩ | ⟨h1, h⟩ := ite_eq_iff.1 h
  · cases h; exact formatA_of_major hm
  obtain ⟨hm, h⟩ | ⟨h2, h⟩ := ite_eq_iff.1 h
  · cases h; exact formatA_of_major hm
  obtain ⟨hm, h⟩ | ⟨h3, h⟩ := ite_eq_iff.1 h
  · cases h; exact formatXNN_of_major hm
  obtain ⟨hm, h⟩ | ⟨h4, h⟩ := ite_eq_iff.1 h
  · cases h; exact formatXNN_of_major hm
  obtain ⟨hm, h⟩ | ⟨h5, h⟩ := ite_eq_iff.1 h
  · obtain ⟨hn, h⟩ | ⟨-, h⟩ := ite_eq_iff.1 h
    · cases h; exact formatXYN_of_major_n hm hn
    · cases h
  obtain ⟨hm, h⟩ | ⟨h6, h⟩ := ite_eq_iff.1 h
  · cases h; exact formatXNN_of_major hm
  obtain ⟨hm, h⟩ | ⟨h7, h⟩ := ite_eq_iff.1 h
  · cases h; exact formatXNN_of_major hm
  obtain ⟨hm, h⟩ | ⟨h8, h⟩ := ite_eq_iff.1 h
  · rw [encode_of_decodeFamily8 h, formatXYN_of_major_n hm rfl]
  obtain ⟨hm, h⟩ | ⟨h9, h⟩ := ite_eq_iff.1 h
  · obtain ⟨hn, h⟩ | ⟨-, h⟩ := ite_eq_iff.1 h
    · cases h; exact formatXYN_of_major_n hm hn
    · cases h
  obtain ⟨hm, h⟩ | ⟨hA, h⟩ := ite_eq_iff.1 h
  · cases h; exact formatA_of_major hm
  obtain ⟨hm, h⟩ | ⟨hB, h⟩ := ite_eq_iff.1 h
  · cases h; exact formatA_of_major hm
  obtain ⟨hm, h⟩ | ⟨hC, h⟩ := ite_eq_iff.1 h
  · cases h; exact formatXNN_of_major hm
  obtain ⟨hm, h⟩ | ⟨hD, h⟩ := ite_eq_iff.1 h
  · cases h; exact formatXYN_of_major_n hm rfl
  obtain ⟨hm, h⟩ | ⟨hE, h⟩ := ite_eq_iff.1 h
  · rw [encode_of_decodeFamilyE h, formatXNN_of_major hm]
  have hm : majorOf op = 0xF := by bv_omega
  rw [encode_of_decodeFamilyF h, formatXNN_of_major hm]

/-! ### The opcode table -/

open Laws in
/-- The encoded word of every instruction selects the instruction's row (R84). -/
theorem selects_row_encode : ∀ i : Instr, selects i.row (encode i) = true
  | .cls => Pattern.cls
  | .ret => Pattern.ret
  | .jp nnn => Pattern.jp nnn
  | .call nnn => Pattern.call nnn
  | .seVxNn x nn => Pattern.seVxNn x nn
  | .sneVxNn x nn => Pattern.sneVxNn x nn
  | .seVxVy x y => Pattern.seVxVy x y
  | .ldVxNn x nn => Pattern.ldVxNn x nn
  | .addVxNn x nn => Pattern.addVxNn x nn
  | .ldVxVy x y => Pattern.ldVxVy x y
  | .orVxVy x y => Pattern.orVxVy x y
  | .andVxVy x y => Pattern.andVxVy x y
  | .xorVxVy x y => Pattern.xorVxVy x y
  | .addVxVy x y => Pattern.addVxVy x y
  | .subVxVy x y => Pattern.subVxVy x y
  | .shrVx x y => Pattern.shrVx x y
  | .subnVxVy x y => Pattern.subnVxVy x y
  | .shlVx x y => Pattern.shlVx x y
  | .sneVxVy x y => Pattern.sneVxVy x y
  | .ldINnn nnn => Pattern.ldINnn nnn
  | .jpV0Nnn nnn => Pattern.jpV0Nnn nnn
  | .rndVxNn x nn => Pattern.rndVxNn x nn
  | .drwVxVyN x y n => Pattern.drwVxVyN x y n
  | .skpVx x => Pattern.skpVx x
  | .sknpVx x => Pattern.sknpVx x
  | .ldVxDt x => Pattern.ldVxDt x
  | .ldVxK x => Pattern.ldVxK x
  | .ldDtVx x => Pattern.ldDtVx x
  | .ldStVx x => Pattern.ldStVx x
  | .addIVx x => Pattern.addIVx x
  | .ldFVx x => Pattern.ldFVx x
  | .ldBVx x => Pattern.ldBVx x
  | .ldMemVx x => Pattern.ldMemVx x
  | .ldVxMem x => Pattern.ldVxMem x

/-- A row does not depend on the operands, so every instruction has its row in the table (R84). -/
theorem row_mem_opcodeTable (i : Instr) : i.row ∈ opcodeTable := by
  cases i <;> exact List.mem_of_elem_eq_true rfl

theorem selects_row_of_decode {op : Word} {i : Instr} (h : decode op = .ok i) : selects i.row op = true :=
  encode_of_decode h ▸ selects_row_encode i

/-- A word that no row of the table selects is not decoded (R76, R85). -/
theorem decode_eq_error_of_none_selects {op : Word} (h : ∀ r ∈ opcodeTable, selects r op = false) :
    ∃ e, decode op = .error e := by
  cases hd : decode op with
  | error e => exact ⟨e, rfl⟩
  | ok i =>
    have hsel : selects i.row op = true := selects_row_of_decode hd
    rw [h i.row (row_mem_opcodeTable i)] at hsel
    contradiction

namespace Machine

/-! ### The step of a word that is not decoded -/

theorem State.decodeBytes_fetchBytes_of_error {s : State} {e : Undecoded} (h : decode s.opcodeAtPc = .error e) :
    decodeBytes s.fetchBytes = .error e := by
  rw [State.decodeBytes_fetchBytes, ← State.opcodeAtPc, h]
  rfl

/-- With the gate open and the fetch in range, a word that is not decoded only advances `pc` (R77). -/
theorem step_of_decode_error {s : State} {e : Undecoded} (hs : s.Ready) (h : decode s.opcodeAtPc = .error e) :
    step s = .next s.advance := by
  obtain ⟨hfault, hrun, hpc⟩ := hs
  have hgate : s.gateOpen = true := s.gateOpen_iff.2 ⟨hfault, hrun⟩
  have hfetch : s.fetchFits = true := s.fetchFits_iff.2 hpc
  rw [step, if_pos hgate, if_pos hfetch, State.decodeBytes_fetchBytes_of_error h]
  rfl

/-- Settles O8: no row selects the word, so it is not decoded, and the step is the no-op. -/
theorem unknownOpcodeStepOnlyAdvances : Obligations.UnknownOpcodeStepOnlyAdvances := by
  refine ⟨rfl, rfl, fun s hs hnone => ?_⟩
  obtain ⟨e, he⟩ := decode_eq_error_of_none_selects hnone
  exact step_of_decode_error hs he

end Machine
end Sys2Proof
end

section
/-! PROOFS. Control (spec/40_control.md): the skips of 3XNN and 4XNN, with their place in the opcode table. -/

namespace Sys2Proof

/-! ### The decoder where the major nibble alone selects the row -/

/-- The mask `0xF000` keeps the major nibble whole. -/
theorem majorOf_and_F000 (op : Word) : majorOf (op &&& 0xF000) = majorOf op := by
  have hmask : BitVec.extractLsb' 12 4 (0xF000 : Word) = BitVec.allOnes 4 := by decide
  rw [majorOf, extractLsb'_and, hmask, BitVec.and_allOnes, ← majorOf]

/-- A word has the major nibble of the pattern it meets under the mask `0xF000` (R84). -/
theorem majorOf_eq_of_and_F000 {op pattern : Word} (h : op &&& 0xF000 = pattern) : majorOf op = majorOf pattern := by
  rw [← h, majorOf_and_F000]

theorem decode_of_majorOf_3 {op : Word} (h : majorOf op = 0x3) : decode op = .ok (.seVxNn (xOf op) (nnOf op)) := by
  rw [decode, h]
  rfl

theorem decode_of_majorOf_4 {op : Word} (h : majorOf op = 0x4) : decode op = .ok (.sneVxNn (xOf op) (nnOf op)) := by
  rw [decode, h]
  rfl

/-- Every 3XNN word is the skip on equality with its byte (R84, R104). -/
theorem decodesAs_seVxNn :
    DecodesAs 0x3000 0xF000 (fun op => .seVxNn (op.extractLsb' 8 4) (op.extractLsb' 0 8)) :=
  fun _ h => decode_of_majorOf_3 (majorOf_eq_of_and_F000 h)

/-- Every 4XNN word is the skip on inequality with its byte (R84, R105). -/
theorem decodesAs_sneVxNn :
    DecodesAs 0x4000 0xF000 (fun op => .sneVxNn (op.extractLsb' 8 4) (op.extractLsb' 0 8)) :=
  fun _ h => decode_of_majorOf_4 (majorOf_eq_of_and_F000 h)

namespace Machine

/-! ### The skip after the advance of the fetch -/

theorem exec_seVxNn (x : Nibble) (nn : Byte) (s : State) :
    exec (.seVxNn x nn) s = .next (s.advance.skipIf (s.reg x == nn)) := rfl

theorem exec_sneVxNn (x : Nibble) (nn : Byte) (s : State) :
    exec (.sneVxNn x nn) s = .next (s.advance.skipIf (s.reg x != nn)) := rfl

/-- The advance and a skip that is taken move `pc` by four in all, two without the skip, and nothing else (R108). -/
theorem State.skipIf_advance (s : State) (c : Bool) :
    s.advance.skipIf c = { s with pc := if c then s.pc + 4 else s.pc + 2 } := by
  have htwice : s.pc + 2 + 2 = s.pc + 4 := BitVec.add_assoc s.pc 2 2
  rw [State.skipIf, State.advance_pc, htwice]
  rfl

/-- A skip on equality. -/
theorem State.skipIf_advance_beq (s : State) (a b : Byte) :
    s.advance.skipIf (a == b) = { s with pc := if a = b then s.pc + 4 else s.pc + 2 } := by
  simp only [State.skipIf_advance, beq_iff_eq]

/-- A skip on inequality. -/
theorem State.skipIf_advance_bne (s : State) (a b : Byte) :
    s.advance.skipIf (a != b) = { s with pc := if a = b then s.pc + 2 else s.pc + 4 } := by
  simp only [State.skipIf_advance, bne_iff_ne, ite_not]

/-- Settles O17: the major nibble selects the instruction, and the skip adds two to the advance of the fetch. -/
theorem immediateSkipResult : Obligations.ImmediateSkipResult := by
  refine ⟨rfl, rfl, rfl, decodesAs_seVxNn, decodesAs_sneVxNn, fun x nn s => ⟨?_, ?_⟩⟩
  · rw [exec_seVxNn, State.skipIf_advance_beq]
  · rw [exec_sneVxNn, State.skipIf_advance_bne]

end Machine
end Sys2Proof
end

section
/-! PROOFS. Arithmetic and logic (spec/41_alu.md): the loads 6XNN and 8XY0 and the sum 7XNN, with their place in the
opcode table. Each is the advance of the fetch and one register write. -/

namespace Sys2Proof

/-! ### A field that the mask of a row keeps whole -/

/-- A word has the field of the pattern it meets under a mask that keeps the field whole (R84). -/
theorem extractLsb'_eq_of_and_eq {op mask pattern : Word} {start len : Nat}
    (hmask : mask.extractLsb' start len = BitVec.allOnes len) (h : op &&& mask = pattern) :
    op.extractLsb' start len = pattern.extractLsb' start len := by
  rw [← h, extractLsb'_and, hmask, BitVec.and_allOnes]

theorem majorOf_eq_of_and_F00F {op pattern : Word} (h : op &&& 0xF00F = pattern) : majorOf op = majorOf pattern :=
  extractLsb'_eq_of_and_eq (by decide) h

theorem nOf_eq_of_and_F00F {op pattern : Word} (h : op &&& 0xF00F = pattern) : nOf op = nOf pattern :=
  extractLsb'_eq_of_and_eq (by decide) h

/-! ### The decoder on 6XNN, 7XNN and 8XY0 -/

theorem decode_of_majorOf_6 {op : Word} (h : majorOf op = 0x6) : decode op = .ok (.ldVxNn (xOf op) (nnOf op)) := by
  rw [decode, h]
  rfl

theorem decode_of_majorOf_7 {op : Word} (h : majorOf op = 0x7) : decode op = .ok (.addVxNn (xOf op) (nnOf op)) := by
  rw [decode, h]
  rfl

/-- The major nibble 0x8 leaves the choice to `op[3:0]`. -/
theorem decode_of_majorOf_8 {op : Word} (h : majorOf op = 0x8) :
    decode op = decodeFamily8 (xOf op) (yOf op) (nOf op) := by
  rw [decode, h]
  rfl

/-- Every 6XNN word is the load of its byte (R84, R121). -/
theorem decodesAs_ldVxNn :
    DecodesAs 0x6000 0xF000 (fun op => .ldVxNn (op.extractLsb' 8 4) (op.extractLsb' 0 8)) :=
  fun _ h => decode_of_majorOf_6 (majorOf_eq_of_and_F000 h)

/-- Every 7XNN word is the sum with its byte (R84, R122). -/
theorem decodesAs_addVxNn :
    DecodesAs 0x7000 0xF000 (fun op => .addVxNn (op.extractLsb' 8 4) (op.extractLsb' 0 8)) :=
  fun _ h => decode_of_majorOf_7 (majorOf_eq_of_and_F000 h)

/-- Every 8XY0 word is the copy between its two registers (R84, R123). -/
theorem decodesAs_ldVxVy :
    DecodesAs 0x8000 0xF00F (fun op => .ldVxVy (op.extractLsb' 8 4) (op.extractLsb' 4 4)) := by
  intro op h
  have hn : nOf op = 0x0 := nOf_eq_of_and_F00F h
  rw [decode_of_majorOf_8 (majorOf_eq_of_and_F00F h), hn]
  rfl

namespace Machine

/-! ### One register write after the advance of the fetch -/

theorem exec_ldVxNn (x : Nibble) (nn : Byte) (s : State) :
    exec (.ldVxNn x nn) s = .next (s.advance.setReg x nn) := rfl

theorem exec_addVxNn (x : Nibble) (nn : Byte) (s : State) :
    exec (.addVxNn x nn) s = .next (s.advance.setReg x (s.reg x + nn)) := rfl

theorem exec_ldVxVy (x y : Nibble) (s : State) :
    exec (.ldVxVy x y) s = .next (s.advance.setReg x (s.reg y)) := rfl

/-- The advance and a write of `V[x]` leave every other register as it was, VF included. -/
theorem State.sameRegsBut_setReg_advance (s : State) (x : Nibble) (b : Byte) :
    SameRegsBut [x] s (s.advance.setReg x b) := by
  intro k hk
  rw [State.reg_setReg_of_ne _ _ (List.ne_of_not_mem_cons hk), State.advance_reg]

/-- An instruction that advances and writes `b` to `V[x]` adds two to `pc` and changes no other part of the state. -/
theorem exec_frame_of_setReg_advance {i : Instr} {s : State} {x : Nibble} {b : Byte}
    (h : exec i s = .next (s.advance.setReg x b)) :
    ∃ t, exec i s = .next t ∧ t.reg x = b ∧ SameRegsBut [x] s t ∧ t.pc = s.pc + 2 ∧ SameButRegs s t :=
  ⟨_, h, State.reg_setReg_self _ x b, s.sameRegsBut_setReg_advance x b, rfl, rfl⟩

/-- Settles O19: the major nibble selects the load, which writes its byte after the advance. -/
theorem loadImmediateResult : Obligations.LoadImmediateResult :=
  ⟨rfl, rfl, rfl, decodesAs_ldVxNn, fun x nn s => exec_frame_of_setReg_advance (exec_ldVxNn x nn s)⟩

/-- Settles O20: the major nibble selects the sum, and the sum of two bytes is the sum of their numbers modulo 256. -/
theorem addImmediateResult : Obligations.AddImmediateResult := by
  refine ⟨rfl, rfl, rfl, decodesAs_addVxNn, fun x nn s => ?_⟩
  obtain ⟨t, hexec, hreg, hframe⟩ := exec_frame_of_setReg_advance (exec_addVxNn x nn s)
  have hsum : (t.reg x).toNat = ((s.reg x).toNat + nn.toNat) % 256 := by rw [hreg, BitVec.toNat_add]
  exact ⟨t, hexec, hsum, hframe⟩

/-- Settles O21: the major nibble and `op[3:0]` select the copy, which writes the old `V[y]` after the advance. -/
theorem copyRegisterResult : Obligations.CopyRegisterResult :=
  ⟨rfl, rfl, decodesAs_ldVxVy, fun x y s => exec_frame_of_setReg_advance (exec_ldVxVy x y s)⟩

end Machine
end Sys2Proof
end

section
/-! PROOFS. Index and memory (spec/42_index_memory.md): the loads ANNN and FX29 of `I`, with their place in the opcode
table. Each is the advance of the fetch and one write of `I`. -/

namespace Sys2Proof

/-! ### The decoder on ANNN and FX29 -/

theorem decode_of_majorOf_A {op : Word} (h : majorOf op = 0xA) : decode op = .ok (.ldINnn (nnnOf op)) := by
  rw [decode, h]
  rfl

/-- The major nibble 0xF leaves the choice to `op[7:0]`. -/
theorem decode_of_majorOf_F {op : Word} (h : majorOf op = 0xF) : decode op = decodeFamilyF (xOf op) (nnOf op) := by
  rw [decode, h]
  rfl

theorem majorOf_eq_of_and_F0FF {op pattern : Word} (h : op &&& 0xF0FF = pattern) : majorOf op = majorOf pattern :=
  extractLsb'_eq_of_and_eq (by decide) h

theorem nnOf_eq_of_and_F0FF {op pattern : Word} (h : op &&& 0xF0FF = pattern) : nnOf op = nnOf pattern :=
  extractLsb'_eq_of_and_eq (by decide) h

/-- Every ANNN word is the load of its address into `I` (R84, R150). -/
theorem decodesAs_ldINnn : DecodesAs 0xA000 0xF000 (fun op => .ldINnn (op.extractLsb' 0 12)) :=
  fun _ h => decode_of_majorOf_A (majorOf_eq_of_and_F000 h)

/-- Every FX29 word is the load of a glyph's address into `I` (R84, R153). -/
theorem decodesAs_ldFVx : DecodesAs 0xF029 0xF0FF (fun op => .ldFVx (op.extractLsb' 8 4)) := by
  intro op h
  have hnn : nnOf op = 0x29 := nnOf_eq_of_and_F0FF h
  rw [decode_of_majorOf_F (majorOf_eq_of_and_F0FF h), hnn]
  rfl

namespace Machine

/-! ### The two values of `I`, as numbers -/

/-- An address of 12 bits keeps its number in the 16 bits of `I`. -/
theorem toNat_zext16_address (nnn : Address) : (zext16 nnn).toNat = nnn.toNat :=
  BitVec.toNat_setWidth_of_le (by decide)

/-- The highest glyph address, 5 times 255, is below 2^16, so the product does not wrap. -/
theorem toNat_glyphAddress_hardware (b : Byte) :
    (glyphAddress hardware.glyphBytes b).toNat = hardware.glyphBytes * b.toNat := by
  have hfits : b.toNat * 5 < 2 ^ 16 := by have := b.isLt; omega
  calc (glyphAddress hardware.glyphBytes b).toNat
      = b.toNat * 5 % 2 ^ 16 := BitVec.toNat_ofNat _ _
    _ = b.toNat * 5 := Nat.mod_eq_of_lt hfits
    _ = hardware.glyphBytes * b.toNat := Nat.mul_comm _ _

/-! ### One write of `I` after the advance of the fetch -/

theorem exec_ldINnn (nnn : Address) (s : State) :
    exec (.ldINnn nnn) s = .next (s.advance.setIndex (zext16 nnn)) := rfl

theorem exec_ldFVx (x : Nibble) (s : State) :
    exec (.ldFVx x) s = .next (s.advance.setIndex (glyphAddress hardware.glyphBytes (s.reg x))) := rfl

/-- An instruction that advances and writes `w` to `I` adds two to `pc` and changes no other part of the state. -/
theorem exec_frame_of_setIndex_advance {i : Instr} {s : State} {w : Word} {n : Nat}
    (h : exec i s = .next (s.advance.setIndex w)) (hw : w.toNat = n) :
    ∃ t, exec i s = .next t ∧ t.i.toNat = n ∧ t.pc = s.pc + 2 ∧ SameButIndex s t :=
  ⟨_, h, hw, rfl, rfl⟩

/-- Settles O27: the major nibble selects the load, and zero extension keeps the number of the address. -/
theorem loadIndexResult : Obligations.LoadIndexResult :=
  ⟨rfl, rfl, decodesAs_ldINnn,
    fun nnn s => exec_frame_of_setIndex_advance (exec_ldINnn nnn s) (toNat_zext16_address nnn)⟩

/-- Settles O29: the major nibble and `op[7:0]` select the load, and five times a byte fits in `I`. -/
theorem glyphAddressResult : Obligations.GlyphAddressResult :=
  ⟨rfl, rfl, rfl, rfl, rfl, rfl, decodesAs_ldFVx,
    fun x s => exec_frame_of_setIndex_advance (exec_ldFVx x s) (toNat_glyphAddress_hardware (s.reg x))⟩

end Machine
end Sys2Proof
end

section
/-! PROOFS. Display (spec/43_display.md): the clear of 00E0, with its place in the opcode table. It is the advance of the
fetch and one write of the display. -/

namespace Sys2Proof

/-! ### The decoder on 00E0 -/

/-- The mask `0xFFFF` keeps the whole word, so 00E0 is its row's only word (R84, R170). -/
theorem decodesAs_cls : DecodesAs 0x00E0 0xFFFF (fun _ => .cls) := by
  intro op h
  have hop : op = 0x00E0 := by rwa [show (0xFFFF : Word) = BitVec.allOnes 16 from rfl, BitVec.and_allOnes] at h
  rw [hop]
  rfl

namespace Machine

/-! ### One write of the display after the advance of the fetch -/

theorem exec_cls (s : State) : exec .cls s = .next (s.advance.setDisplay Display.clear) := rfl

/-- The advance and a write of the display change `pc` and the display and no other part of the state. -/
theorem State.setDisplay_advance (s : State) (d : Display) :
    s.advance.setDisplay d = { s with display := d, pc := s.pc + 2 } := rfl

/-- Settles O35: only the word 00E0 is the clear, which writes the display with no cell lit after the advance. -/
theorem clearScreenResult : Obligations.ClearScreenResult :=
  ⟨rfl, rfl, rfl, decodesAs_cls,
    fun s => ⟨_, exec_cls s, Display.lit_clear, s.setDisplay_advance Display.clear⟩⟩

end Machine
end Sys2Proof
end

section
/-! PROOFS. Keypad and timers (spec/44_keypad_timers.md): the wait of FX0A, and FX07, FX15 and FX18 with the ticks after
them. -/

namespace Sys2Proof

/-! ### The decoder on FX07, FX0A, FX15 and FX18 -/

/-- Under the mask `0xF0FF`, a word of the major nibble 0xF is decoded by the pattern's low byte (R84). -/
theorem decode_of_and_F0FF {op pattern : Word} (h : op &&& 0xF0FF = pattern) (hm : majorOf pattern = 0xF) :
    decode op = decodeFamilyF (xOf op) (nnOf pattern) := by
  rw [decode_of_majorOf_F ((majorOf_eq_of_and_F0FF h).trans hm), nnOf_eq_of_and_F0FF h]

/-- Every FX07 word is the load of DT (R84, R196). -/
theorem decodesAs_ldVxDt : DecodesAs 0xF007 0xF0FF (fun op => .ldVxDt (op.extractLsb' 8 4)) :=
  fun _ h => decode_of_and_F0FF h rfl

/-- Every FX0A word is the wait for a key (R84, R193). -/
theorem decodesAs_ldVxK : DecodesAs 0xF00A 0xF0FF (fun op => .ldVxK (op.extractLsb' 8 4)) :=
  fun _ h => decode_of_and_F0FF h rfl

/-- Every FX15 word is the write of DT (R84, R197). -/
theorem decodesAs_ldDtVx : DecodesAs 0xF015 0xF0FF (fun op => .ldDtVx (op.extractLsb' 8 4)) :=
  fun _ h => decode_of_and_F0FF h rfl

/-- Every FX18 word is the write of ST (R84, R198). -/
theorem decodesAs_ldStVx : DecodesAs 0xF018 0xF0FF (fun op => .ldStVx (op.extractLsb' 8 4)) :=
  fun _ h => decode_of_and_F0FF h rfl

namespace Machine

/-! ### A step that decodes, and the host's view of it -/

/-- With the gate open and the fetch in range, the decoded instruction runs (R70 to R76). -/
theorem step_of_decode_ok {s : State} {i : Instr} (hs : s.Ready) (h : decode s.opcodeAtPc = .ok i) :
    step s = exec i s := by
  obtain ⟨hfault, hrun, hpc⟩ := hs
  have hgate : s.gateOpen = true := s.gateOpen_iff.2 ⟨hfault, hrun⟩
  have hfetch : s.fetchFits = true := s.fetchFits_iff.2 hpc
  rw [step, if_pos hgate, if_pos hfetch, State.decodeBytes_fetchBytes, ← State.opcodeAtPc, h]
  rfl

/-- A step with no latched fault after it answers `Ok` (R78). -/
theorem transact_step_ok {s t : State} (h : step s = .next t) (hfault : t.fault = none) :
    transact .step s = .next (t, .ok) := by
  rw [transact, h]
  simp only [State.stepResponse, hfault]

theorem State.after_step {s t : State} (h : step s = .next t) : s.after .step = t := by
  simp only [State.after, transact, h]

theorem State.after_setKey (s : State) {k : Nat} (hk : k < hardware.numKeys) (p : Bool) :
    s.after (.setKey k p) = s.setKey k p := by
  simp only [State.after, transact, if_pos hk]

/-- A transaction that leaves the state as it was does so however often it is repeated. -/
theorem State.afterAll_replicate {s : State} {t : Transaction} (h : s.after t = s) (n : Nat) :
    s.afterAll (List.replicate n t) = s := by
  induction n with
  | zero => rfl
  | succ n ih =>
    rw [List.replicate_succ, State.afterAll, List.foldl_cons, h]
    exact ih

/-! ### FX0A: the lowest key, or the wait -/

theorem exec_ldVxK_of_pressed {s : State} {k : Nat} (x : Nibble) (hk : k < hardware.fx0aScanEnd)
    (hdown : s.keyDown k = true) (hlowest : ∀ j < k, s.keyDown j = false) :
    exec (.ldVxK x) s = .next (s.advance.setReg x (BitVec.ofNat 8 k)) := by
  rw [← execUnder_hardware, execUnder_ldVxK hk hdown hlowest]

/-- The rewind of FX0A undoes the advance of the fetch (R194). -/
theorem State.rewind_advance (s : State) : s.advance.rewind = s := by
  have hpc : s.pc + 2 - 2 = s.pc := BitVec.add_sub_cancel s.pc 2
  rw [State.rewind, State.advance_pc, hpc]
  rfl

/-- With no key of the scan pressed, FX0A leaves the whole state as it was (R194, R195). -/
theorem exec_ldVxK_of_none_pressed {s : State} (x : Nibble)
    (hnone : ∀ k < hardware.fx0aScanEnd, s.keyDown k = false) : exec (.ldVxK x) s = .next s := by
  have hscan : s.firstKey hardware.fx0aScanEnd = none := State.firstKey_eq_none.2 hnone
  rw [exec, execLdVxK, execLdVxKUnder, hscan]
  exact congrArg _ s.rewind_advance

/-- A key that the scan reaches keeps its number in a register. -/
theorem toNat_ofNat_key {k : Nat} (hk : k < hardware.fx0aScanEnd) : (BitVec.ofNat 8 k).toNat = k := by
  rw [BitVec.toNat_ofNat, Nat.mod_eq_of_lt (hk.trans (by decide))]

/-- A pressed key is the lowest one where no other key of the scan is pressed, so FX0A loads it. -/
theorem exec_ldVxK_setKey {s : State} {k : Nat} (x : Nibble)
    (hnone : ∀ k < hardware.fx0aScanEnd, s.keyDown k = false) (hk : k < hardware.fx0aScanEnd) :
    exec (.ldVxK x) (s.setKey k true) = .next ((s.setKey k true).advance.setReg x (BitVec.ofNat 8 k)) := by
  have hkey : k < hardware.numKeys := hk.trans (by decide)
  refine exec_ldVxK_of_pressed x hk ?_ fun j hj => ?_
  · rw [State.keyDown_setKey s hkey, if_pos rfl]
  · rw [State.keyDown_setKey s hkey, if_neg hj.ne, hnone j (hj.trans hk)]

/-- Settles O40: the scan loads its lowest pressed key, or the rewind undoes the advance. -/
theorem waitForKeyResult : Obligations.WaitForKeyResult := by
  refine ⟨rfl, rfl, rfl, rfl, rfl, decodesAs_ldVxK, fun x s => ⟨?_, exec_ldVxK_of_none_pressed x⟩⟩
  intro k hk hdown hlowest
  obtain ⟨t, hexec, hreg, hframe⟩ := exec_frame_of_setReg_advance (exec_ldVxK_of_pressed x hk hdown hlowest)
  exact ⟨t, hexec, by rw [hreg, toNat_ofNat_key hk], hframe⟩

/-- After the set of a key the same word is fetched, so FX0A ends its wait with that key. -/
theorem State.afterAll_setKey_step_of_waiting {s : State} {x : Nibble} {k : Nat} (hs : s.Ready)
    (hdecode : decode s.opcodeAtPc = .ok (.ldVxK x)) (hnone : ∀ k < hardware.fx0aScanEnd, s.keyDown k = false)
    (hk : k < hardware.fx0aScanEnd) :
    s.afterAll [.setKey k true, .step] = (s.setKey k true).advance.setReg x (BitVec.ofNat 8 k) := by
  have hstep : step (s.setKey k true) = exec (.ldVxK x) (s.setKey k true) :=
    step_of_decode_ok (s := s.setKey k true) hs hdecode
  calc s.afterAll [.setKey k true, .step]
      = (s.after (.setKey k true)).after .step := rfl
    _ = (s.setKey k true).after .step := by rw [State.after_setKey s (hk.trans (by decide))]
    _ = _ := State.after_step (hstep.trans (exec_ldVxK_setKey x hnone hk))

/-- Settles O41: a waiting step is a fixed point, so its repeats are; a key set then is the only one the scan finds. -/
theorem waitingStepRepeats : Obligations.WaitingStepRepeats := by
  refine ⟨rfl, rfl, rfl, rfl, rfl, rfl, fun x s hs hdecode hnone => ?_⟩
  have hwait : step s = .next s := (step_of_decode_ok hs hdecode).trans (exec_ldVxK_of_none_pressed x hnone)
  refine ⟨transact_step_ok hwait hs.1, State.afterAll_replicate (State.after_step hwait), fun k hk => ?_⟩
  rw [State.afterAll_setKey_step_of_waiting hs hdecode hnone hk, State.reg_setReg_self]
  exact ⟨toNat_ofNat_key hk, rfl⟩

/-! ### FX07, FX15 and FX18, and the ticks after them -/

theorem exec_ldVxDt (x : Nibble) (s : State) : exec (.ldVxDt x) s = .next (s.advance.setReg x s.dt) := rfl

theorem exec_ldDtVx (x : Nibble) (s : State) : exec (.ldDtVx x) s = .next (s.advance.setDelay (s.reg x)) := rfl

theorem exec_ldStVx (x : Nibble) (s : State) : exec (.ldStVx x) s = .next (s.advance.setSound (s.reg x)) := rfl

/-- The sound signal of a tick, as arithmetic: ST before its decrement is above 0 (R225). -/
theorem State.tickTimers_soundActive_eq_decide_pos (s : State) :
    s.tickTimers.soundActive = decide (0 < s.st.toNat) := by
  have hpos : s.st ≠ 0 ↔ 0 < s.st.toNat := by rw [Nat.pos_iff_ne_zero, BitVec.toNat_ne]; rfl
  rw [State.tickTimers_soundActive, decide_eq_decide.2 hpos]

/-- The second tick sounds where ST was above 1 before the first. -/
theorem State.tickTimers_tickTimers_soundActive (s : State) :
    s.tickTimers.tickTimers.soundActive = decide (1 < s.st.toNat) := by
  rw [State.tickTimers_soundActive_eq_decide_pos, State.tickTimers_st, tickDown_toNat,
    decide_eq_decide.2 Nat.sub_pos_iff_lt]

/-- Settles O42: each transfer is the advance and one write, and a tick decrements what was written. -/
theorem timerTransferResult : Obligations.TimerTransferResult := by
  refine ⟨rfl, rfl, rfl, rfl, decodesAs_ldVxDt, decodesAs_ldDtVx, decodesAs_ldStVx, fun x s => ⟨?_, ?_, ?_⟩⟩
  · exact exec_frame_of_setReg_advance (exec_ldVxDt x s)
  · exact ⟨_, exec_ldDtVx x s, rfl, tickDown_toNat (s.reg x)⟩
  · exact ⟨_, exec_ldStVx x s, rfl, State.tickTimers_soundActive_eq_decide_pos _,
      State.tickTimers_tickTimers_soundActive _⟩

end Machine
end Sys2Proof
end

section
/-! PROOFS. Reset and load (spec/70_reset_and_hazards.md): the size limit of a ROM, and where its bytes stand. -/

namespace Sys2Proof.Machine

/-- What an accepted load leaves at the addresses of the ROM: its bytes (R43, R250). -/
theorem exists_load_eq_ok_byteAt_rom (n : Nat) {bytes : List Byte} (h : bytes.length ≤ hardware.romMax) :
    ∃ s, load n (some bytes) = .ok s ∧
      ∀ k (hk : k < bytes.length), s.byteAt (hardware.romBase + k) = bytes[k] :=
  ⟨_, load_fits n h, fun _ hk => memRead_writeList_inside [] bytes hk⟩

/-- The largest ROM ends where memory ends, so each byte of an accepted one has an address (R252). -/
theorem romBase_add_lt_memSize {k : Nat} (h : k < hardware.romMax) : hardware.romBase + k < hardware.memSize :=
  calc hardware.romBase + k
      < hardware.romBase + hardware.romMax := Nat.add_lt_add_left h _
    _ = hardware.memSize := rfl

/-- Settles O59: the load's length check refuses the longer ROM, and one of the limit's length is written from
`ROM_BASE` up to the end of memory. -/
theorem loadSizeLimit : Obligations.LoadSizeLimit := by
  refine ⟨rfl, rfl, rfl, fun n bytes => ⟨load_too_large n, fun hlength => ?_⟩⟩
  obtain ⟨s, hload, hrom⟩ := exists_load_eq_ok_byteAt_rom n hlength.le
  exact ⟨s, hload, fun k hk => ⟨hrom k hk, romBase_add_lt_memSize (hlength ▸ hk)⟩⟩

end Sys2Proof.Machine
end

section
/-! PROOFS. Encoding (spec/30_encoding.md): decoding undoes encoding, format by format; each row of the opcode table
selects the words of its instruction, and no word selects two rows. -/

namespace Sys2Proof

/-! ### The decoder on an encoded word -/

theorem decode_formatXYN_8 (x y n : Nibble) : decode (formatXYN 0x8 x y n) = decodeFamily8 x y n := by
  rw [decode_of_majorOf_8 (majorOf_formatXYN _ x y n), xOf_formatXYN, yOf_formatXYN, nOf_formatXYN]

theorem decode_formatXNN_E (x : Nibble) (nn : Byte) : decode (formatXNN 0xE x nn) = decodeFamilyE x nn := by
  rw [decode, majorOf_formatXNN, xOf_formatXNN, nnOf_formatXNN]
  rfl

theorem decode_formatXNN_F (x : Nibble) (nn : Byte) : decode (formatXNN 0xF x nn) = decodeFamilyF x nn := by
  rw [decode_of_majorOf_F (majorOf_formatXNN _ x nn), xOf_formatXNN, nnOf_formatXNN]

/-- Decoding undoes encoding. In families 8, E and F the constant field selects the instruction; in the others the
major nibble does, and the decoder's branches are read off it (R76, R84). -/
theorem decode_encode (i : Instr) : decode (encode i) = .ok i := by
  cases i with
  | cls | ret => rfl
  | ldVxVy x y | orVxVy x y | andVxVy x y | xorVxVy x y | addVxVy x y | subVxVy x y | shrVx x y | subnVxVy x y
  | shlVx x y => exact decode_formatXYN_8 x y _
  | skpVx x | sknpVx x => exact decode_formatXNN_E x _
  | ldVxDt x | ldVxK x | ldDtVx x | ldStVx x | addIVx x | ldFVx x | ldBVx x | ldMemVx x | ldVxMem x =>
    exact decode_formatXNN_F x _
  | jp | call | ldINnn | jpV0Nnn => rw [encode, decode, majorOf_formatA, nnnOf_formatA]; rfl
  | seVxNn | sneVxNn | ldVxNn | addVxNn | rndVxNn =>
    rw [encode, decode, majorOf_formatXNN, xOf_formatXNN, nnOf_formatXNN]; rfl
  | seVxVy | sneVxVy | drwVxVyN =>
    rw [encode, decode, majorOf_formatXYN, xOf_formatXYN, yOf_formatXYN, nOf_formatXYN]; rfl

/-- The bytes of an encoded instruction, at the front of any others, are decoded as its word (R52, R79). -/
theorem decodeBytes_encodeBytes_append (i : Instr) (rest : List Byte) :
    decodeBytes (encodeBytes i ++ rest) = .ok (i, rest) := by
  rw [encodeBytes, List.cons_append, List.singleton_append, decodeBytes_cons_cons, opcodeOf_bytes, decode_encode]
  rfl

/-- Settles O1: the decoder reads the fixed nibbles and the fields that the encoder wrote. -/
theorem decodeEncodeRoundTrip : Obligations.DecodeEncodeRoundTrip :=
  fun i rest _ => ⟨decode_encode i, decodeBytes_encodeBytes_append i rest⟩

/-- Settles O2: a decoded word is the encoding of its instruction, family by family. -/
theorem encodeDecodeRoundTrip : Obligations.EncodeDecodeRoundTrip := fun _ _ => encode_of_decode

/-! ### The rows of the opcode table

A word that meets a row's pattern is the encoding of the row's instruction with the word's own fields, so it decodes to
it. One lemma per format. -/

theorem decode_of_encode_eq {op : Word} {i : Instr} (h : encode i = op) : decode op = .ok i :=
  h ▸ decode_encode i

theorem decodesAs_of_formatA {f : Address → Instr} {m : Nibble} {pattern : Word}
    (hf : ∀ nnn, encode (f nnn) = formatA m nnn) (hm : majorOf pattern = m) :
    DecodesAs pattern 0xF000 (fun op => f (op.extractLsb' 0 12)) :=
  fun _ h => decode_of_encode_eq ((hf _).trans (formatA_of_major ((majorOf_eq_of_and_F000 h).trans hm)))

theorem decodesAs_of_formatXNN {f : Nibble → Byte → Instr} {m : Nibble} {pattern : Word}
    (hf : ∀ x nn, encode (f x nn) = formatXNN m x nn) (hm : majorOf pattern = m) :
    DecodesAs pattern 0xF000 (fun op => f (op.extractLsb' 8 4) (op.extractLsb' 0 8)) :=
  fun _ h => decode_of_encode_eq ((hf _ _).trans (formatXNN_of_major ((majorOf_eq_of_and_F000 h).trans hm)))

theorem decodesAs_of_formatXYN {f : Nibble → Nibble → Nibble → Instr} {m : Nibble} {pattern : Word}
    (hf : ∀ x y n, encode (f x y n) = formatXYN m x y n) (hm : majorOf pattern = m) :
    DecodesAs pattern 0xF000 (fun op => f (op.extractLsb' 8 4) (op.extractLsb' 4 4) (op.extractLsb' 0 4)) :=
  fun _ h => decode_of_encode_eq
    ((hf _ _ _).trans (formatXYN_of_major_n ((majorOf_eq_of_and_F000 h).trans hm) rfl))

/-- Format XY: the low nibble is part of the pattern. -/
theorem decodesAs_of_formatXY {f : Nibble → Nibble → Instr} {m n : Nibble} {pattern : Word}
    (hf : ∀ x y, encode (f x y) = formatXYN m x y n) (hm : majorOf pattern = m) (hn : nOf pattern = n) :
    DecodesAs pattern 0xF00F (fun op => f (op.extractLsb' 8 4) (op.extractLsb' 4 4)) :=
  fun _ h => decode_of_encode_eq ((hf _ _).trans
    (formatXYN_of_major_n ((majorOf_eq_of_and_F00F h).trans hm) ((nOf_eq_of_and_F00F h).trans hn)))

/-- Format XK: the low byte is part of the pattern. -/
theorem decodesAs_of_formatXK {f : Nibble → Instr} {m : Nibble} {nn : Byte} {pattern : Word}
    (hf : ∀ x, encode (f x) = formatXNN m x nn) (hm : majorOf pattern = m) (hnn : nnOf pattern = nn) :
    DecodesAs pattern 0xF0FF (fun op => f (op.extractLsb' 8 4)) := by
  intro op h
  have hop : formatXNN m (xOf op) (nnOf op) = op := formatXNN_of_major ((majorOf_eq_of_and_F0FF h).trans hm)
  rw [nnOf_eq_of_and_F0FF h, hnn] at hop
  exact decode_of_encode_eq ((hf _).trans hop)

theorem decodesAs_ret : DecodesAs 0x00EE 0xFFFF (fun _ => .ret) := by
  intro op h
  have hop : op = 0x00EE := by rwa [show (0xFFFF : Word) = BitVec.allOnes 16 from rfl, BitVec.and_allOnes] at h
  rw [hop]
  rfl

theorem decodesAs_jp : DecodesAs 0x1000 0xF000 (fun op => .jp (op.extractLsb' 0 12)) :=
  decodesAs_of_formatA (m := 0x1) (fun _ => rfl) rfl

theorem decodesAs_call : DecodesAs 0x2000 0xF000 (fun op => .call (op.extractLsb' 0 12)) :=
  decodesAs_of_formatA (m := 0x2) (fun _ => rfl) rfl

theorem decodesAs_seVxVy : DecodesAs 0x5000 0xF00F (fun op => .seVxVy (op.extractLsb' 8 4) (op.extractLsb' 4 4)) :=
  decodesAs_of_formatXY (m := 0x5) (n := 0x0) (fun _ _ => rfl) rfl rfl

theorem decodesAs_orVxVy : DecodesAs 0x8001 0xF00F (fun op => .orVxVy (op.extractLsb' 8 4) (op.extractLsb' 4 4)) :=
  decodesAs_of_formatXY (m := 0x8) (n := 0x1) (fun _ _ => rfl) rfl rfl

theorem decodesAs_andVxVy : DecodesAs 0x8002 0xF00F (fun op => .andVxVy (op.extractLsb' 8 4) (op.extractLsb' 4 4)) :=
  decodesAs_of_formatXY (m := 0x8) (n := 0x2) (fun _ _ => rfl) rfl rfl

theorem decodesAs_xorVxVy : DecodesAs 0x8003 0xF00F (fun op => .xorVxVy (op.extractLsb' 8 4) (op.extractLsb' 4 4)) :=
  decodesAs_of_formatXY (m := 0x8) (n := 0x3) (fun _ _ => rfl) rfl rfl

theorem decodesAs_addVxVy : DecodesAs 0x8004 0xF00F (fun op => .addVxVy (op.extractLsb' 8 4) (op.extractLsb' 4 4)) :=
  decodesAs_of_formatXY (m := 0x8) (n := 0x4) (fun _ _ => rfl) rfl rfl

theorem decodesAs_subVxVy : DecodesAs 0x8005 0xF00F (fun op => .subVxVy (op.extractLsb' 8 4) (op.extractLsb' 4 4)) :=
  decodesAs_of_formatXY (m := 0x8) (n := 0x5) (fun _ _ => rfl) rfl rfl

theorem decodesAs_shrVx : DecodesAs 0x8006 0xF00F (fun op => .shrVx (op.extractLsb' 8 4) (op.extractLsb' 4 4)) :=
  decodesAs_of_formatXY (m := 0x8) (n := 0x6) (fun _ _ => rfl) rfl rfl

theorem decodesAs_subnVxVy : DecodesAs 0x8007 0xF00F (fun op => .subnVxVy (op.extractLsb' 8 4) (op.extractLsb' 4 4)) :=
  decodesAs_of_formatXY (m := 0x8) (n := 0x7) (fun _ _ => rfl) rfl rfl

theorem decodesAs_shlVx : DecodesAs 0x800E 0xF00F (fun op => .shlVx (op.extractLsb' 8 4) (op.extractLsb' 4 4)) :=
  decodesAs_of_formatXY (m := 0x8) (n := 0xE) (fun _ _ => rfl) rfl rfl

theorem decodesAs_sneVxVy : DecodesAs 0x9000 0xF00F (fun op => .sneVxVy (op.extractLsb' 8 4) (op.extractLsb' 4 4)) :=
  decodesAs_of_formatXY (m := 0x9) (n := 0x0) (fun _ _ => rfl) rfl rfl

theorem decodesAs_jpV0Nnn : DecodesAs 0xB000 0xF000 (fun op => .jpV0Nnn (op.extractLsb' 0 12)) :=
  decodesAs_of_formatA (m := 0xB) (fun _ => rfl) rfl

theorem decodesAs_rndVxNn : DecodesAs 0xC000 0xF000 (fun op => .rndVxNn (op.extractLsb' 8 4) (op.extractLsb' 0 8)) :=
  decodesAs_of_formatXNN (m := 0xC) (fun _ _ => rfl) rfl

theorem decodesAs_drwVxVyN : DecodesAs 0xD000 0xF000
    (fun op => .drwVxVyN (op.extractLsb' 8 4) (op.extractLsb' 4 4) (op.extractLsb' 0 4)) :=
  decodesAs_of_formatXYN (m := 0xD) (fun _ _ _ => rfl) rfl

theorem decodesAs_skpVx : DecodesAs 0xE09E 0xF0FF (fun op => .skpVx (op.extractLsb' 8 4)) :=
  decodesAs_of_formatXK (m := 0xE) (nn := 0x9E) (fun _ => rfl) rfl rfl

theorem decodesAs_sknpVx : DecodesAs 0xE0A1 0xF0FF (fun op => .sknpVx (op.extractLsb' 8 4)) :=
  decodesAs_of_formatXK (m := 0xE) (nn := 0xA1) (fun _ => rfl) rfl rfl

theorem decodesAs_addIVx : DecodesAs 0xF01E 0xF0FF (fun op => .addIVx (op.extractLsb' 8 4)) :=
  decodesAs_of_formatXK (m := 0xF) (nn := 0x1E) (fun _ => rfl) rfl rfl

theorem decodesAs_ldBVx : DecodesAs 0xF033 0xF0FF (fun op => .ldBVx (op.extractLsb' 8 4)) :=
  decodesAs_of_formatXK (m := 0xF) (nn := 0x33) (fun _ => rfl) rfl rfl

theorem decodesAs_ldMemVx : DecodesAs 0xF055 0xF0FF (fun op => .ldMemVx (op.extractLsb' 8 4)) :=
  decodesAs_of_formatXK (m := 0xF) (nn := 0x55) (fun _ => rfl) rfl rfl

theorem decodesAs_ldVxMem : DecodesAs 0xF065 0xF0FF (fun op => .ldVxMem (op.extractLsb' 8 4)) :=
  decodesAs_of_formatXK (m := 0xF) (nn := 0x65) (fun _ => rfl) rfl rfl

/-- Settles O3: row by row, a word that meets the pattern is the encoding of its fields. -/
theorem eachTableRowDecodes : Obligations.EachTableRowDecodes :=
  ⟨decodesAs_cls, decodesAs_ret, decodesAs_jp, decodesAs_call, decodesAs_seVxNn, decodesAs_sneVxNn, decodesAs_seVxVy,
    decodesAs_ldVxNn, decodesAs_addVxNn, decodesAs_ldVxVy, decodesAs_orVxVy, decodesAs_andVxVy, decodesAs_xorVxVy,
    decodesAs_addVxVy, decodesAs_subVxVy, decodesAs_shrVx, decodesAs_subnVxVy, decodesAs_shlVx, decodesAs_sneVxVy,
    decodesAs_ldINnn, decodesAs_jpV0Nnn, decodesAs_rndVxNn, decodesAs_drwVxVyN, decodesAs_skpVx, decodesAs_sknpVx,
    decodesAs_ldVxDt, decodesAs_ldVxK, decodesAs_ldDtVx, decodesAs_ldStVx, decodesAs_addIVx, decodesAs_ldFVx,
    decodesAs_ldBVx, decodesAs_ldMemVx, decodesAs_ldVxMem⟩

/-! ### One row per word -/

/-- A word that selects an instruction's row decodes, to an instruction of that row (R76, R84). -/
theorem exists_decode_of_selects_row {op : Word} (i : Instr) (h : selects i.row op = true) :
    ∃ j, decode op = .ok j ∧ j.row = i.row := by
  have hop : op &&& i.row.2 = i.row.1 := beq_iff_eq.1 h
  cases i with
  | cls => exact ⟨_, decodesAs_cls op hop, rfl⟩
  | ret => exact ⟨_, decodesAs_ret op hop, rfl⟩
  | jp => exact ⟨_, decodesAs_jp op hop, rfl⟩
  | call => exact ⟨_, decodesAs_call op hop, rfl⟩
  | seVxNn => exact ⟨_, decodesAs_seVxNn op hop, rfl⟩
  | sneVxNn => exact ⟨_, decodesAs_sneVxNn op hop, rfl⟩
  | seVxVy => exact ⟨_, decodesAs_seVxVy op hop, rfl⟩
  | ldVxNn => exact ⟨_, decodesAs_ldVxNn op hop, rfl⟩
  | addVxNn => exact ⟨_, decodesAs_addVxNn op hop, rfl⟩
  | ldVxVy => exact ⟨_, decodesAs_ldVxVy op hop, rfl⟩
  | orVxVy => exact ⟨_, decodesAs_orVxVy op hop, rfl⟩
  | andVxVy => exact ⟨_, decodesAs_andVxVy op hop, rfl⟩
  | xorVxVy => exact ⟨_, decodesAs_xorVxVy op hop, rfl⟩
  | addVxVy => exact ⟨_, decodesAs_addVxVy op hop, rfl⟩
  | subVxVy => exact ⟨_, decodesAs_subVxVy op hop, rfl⟩
  | shrVx => exact ⟨_, decodesAs_shrVx op hop, rfl⟩
  | subnVxVy => exact ⟨_, decodesAs_subnVxVy op hop, rfl⟩
  | shlVx => exact ⟨_, decodesAs_shlVx op hop, rfl⟩
  | sneVxVy => exact ⟨_, decodesAs_sneVxVy op hop, rfl⟩
  | ldINnn => exact ⟨_, decodesAs_ldINnn op hop, rfl⟩
  | jpV0Nnn => exact ⟨_, decodesAs_jpV0Nnn op hop, rfl⟩
  | rndVxNn => exact ⟨_, decodesAs_rndVxNn op hop, rfl⟩
  | drwVxVyN => exact ⟨_, decodesAs_drwVxVyN op hop, rfl⟩
  | skpVx => exact ⟨_, decodesAs_skpVx op hop, rfl⟩
  | sknpVx => exact ⟨_, decodesAs_sknpVx op hop, rfl⟩
  | ldVxDt => exact ⟨_, decodesAs_ldVxDt op hop, rfl⟩
  | ldVxK => exact ⟨_, decodesAs_ldVxK op hop, rfl⟩
  | ldDtVx => exact ⟨_, decodesAs_ldDtVx op hop, rfl⟩
  | ldStVx => exact ⟨_, decodesAs_ldStVx op hop, rfl⟩
  | addIVx => exact ⟨_, decodesAs_addIVx op hop, rfl⟩
  | ldFVx => exact ⟨_, decodesAs_ldFVx op hop, rfl⟩
  | ldBVx => exact ⟨_, decodesAs_ldBVx op hop, rfl⟩
  | ldMemVx => exact ⟨_, decodesAs_ldMemVx op hop, rfl⟩
  | ldVxMem => exact ⟨_, decodesAs_ldVxMem op hop, rfl⟩

/-- A word that selects a row of the table decodes, to an instruction of that row. -/
theorem exists_decode_of_selects {op : Word} {r : Word × Word} (hr : r ∈ opcodeTable) (h : selects r op = true) :
    ∃ j, decode op = .ok j ∧ j.row = r := by
  obtain ⟨i, -, rfl⟩ := List.mem_map.1 hr
  exact exists_decode_of_selects_row i h

/-- The decoder has one error, the unknown opcode (R85). -/
theorem eq_unknownOpcode_of_decode_eq_error {op : Word} {e : Undecoded} (h : decode op = .error e) :
    e = .unknownOpcode := by
  cases e with
  | unknownOpcode => rfl
  | truncated =>
    simp only [decode, decodeFamily0, decodeFamily8, decodeFamilyE, decodeFamilyF, ite_eq_iff, reduceCtorEq,
      Except.error.injEq, and_false, or_false] at h

/-- Settles O4: a row that selects the word decodes it; with none the decoder has its one error. -/
theorem unknownExactlyWhereNoRowSelects : Obligations.UnknownExactlyWhereNoRowSelects := by
  refine fun op => ⟨fun herr r hr => ?_, fun hnone => ?_⟩
  · by_contra hsel
    obtain ⟨j, hj, -⟩ := exists_decode_of_selects hr (Bool.not_eq_false _ ▸ hsel)
    rw [hj] at herr
    contradiction
  · obtain ⟨e, he⟩ := decode_eq_error_of_none_selects hnone
    rw [he, eq_unknownOpcode_of_decode_eq_error he]

/-- Settles O5: both rows are the row of the one instruction that the word decodes to. -/
theorem tableRowsDoNotOverlap : Obligations.TableRowsDoNotOverlap := by
  intro op r r' hr hr' hsel hsel'
  obtain ⟨j, hj, hrow⟩ := exists_decode_of_selects hr hsel
  obtain ⟨j', hj', hrow'⟩ := exists_decode_of_selects hr' hsel'
  obtain rfl : j = j' := Except.ok.inj (hj.symm.trans hj')
  exact hrow.symm.trans hrow'

/-- Settles O6: each word is the encoding of its instruction, and 0x5121 has a low nibble that no pattern of its
family has. -/
theorem specExampleWordsDecode : Obligations.SpecExampleWordsDecode :=
  ⟨decode_encode .cls, decode_encode (.jp 0x234), decode_encode (.ldVxNn 0xA 0x05), decode_encode (.shrVx 1 2),
    decode_encode (.drwVxVyN 0 1 5), decode_encode (.sknpVx 1), decode_encode (.ldBVx 5), rfl⟩

end Sys2Proof
end

section
/-! PROOFS. What an instruction can do, said once: its meaning as an equation, and the parts of the state that it writes
when it completes. -/

namespace Sys2Proof.Machine

/-! ### The meaning of each instruction, as operations on the state before the step -/

theorem exec_ret (s : State) :
    exec .ret s = s.orRaise .stackUnderflow s.pc (s.advance.pop.map (fun r => r.2.jump r.1)) := rfl

theorem exec_jp (nnn : Address) (s : State) : exec (.jp nnn) s = .next (s.advance.jump (zext16 nnn)) := rfl

theorem exec_call (nnn : Address) (s : State) :
    exec (.call nnn) s =
      s.orRaise .stackOverflow s.pc ((s.advance.push hardware s.advance.pc).map (State.jump (zext16 nnn))) := rfl

theorem exec_seVxVy (x y : Nibble) (s : State) :
    exec (.seVxVy x y) s = .next (s.advance.skipIf (s.reg x == s.reg y)) := rfl

theorem exec_sneVxVy (x y : Nibble) (s : State) :
    exec (.sneVxVy x y) s = .next (s.advance.skipIf (s.reg x != s.reg y)) := rfl

theorem exec_jpV0Nnn (nnn : Address) (s : State) :
    exec (.jpV0Nnn nnn) s = .next (s.advance.jump (indexedTarget (s.reg 0) nnn)) := rfl

theorem exec_orVxVy (x y : Nibble) (s : State) :
    exec (.orVxVy x y) s = .next (s.advance.setReg x (s.reg x ||| s.reg y)) := rfl

theorem exec_andVxVy (x y : Nibble) (s : State) :
    exec (.andVxVy x y) s = .next (s.advance.setReg x (s.reg x &&& s.reg y)) := rfl

theorem exec_xorVxVy (x y : Nibble) (s : State) :
    exec (.xorVxVy x y) s = .next (s.advance.setReg x (s.reg x ^^^ s.reg y)) := rfl

theorem exec_addVxVy (x y : Nibble) (s : State) :
    exec (.addVxVy x y) s =
      .next (s.advance.setRegFlag true x (s.reg x + s.reg y) (carry (s.reg x) (s.reg y))) := rfl

theorem exec_subVxVy (x y : Nibble) (s : State) :
    exec (.subVxVy x y) s =
      .next (s.advance.setRegFlag true x (s.reg x - s.reg y) (noBorrow (s.reg x) (s.reg y))) := rfl

theorem exec_subnVxVy (x y : Nibble) (s : State) :
    exec (.subnVxVy x y) s =
      .next (s.advance.setRegFlag true x (s.reg y - s.reg x) (noBorrow (s.reg y) (s.reg x))) := rfl

theorem exec_shrVx (x y : Nibble) (s : State) :
    exec (.shrVx x y) s = .next (s.advance.setRegFlag true x (s.reg x >>> 1) (lowBit (s.reg x))) := rfl

theorem exec_shlVx (x y : Nibble) (s : State) :
    exec (.shlVx x y) s = .next (s.advance.setRegFlag true x (s.reg x <<< 1) (highBit (s.reg x))) := rfl

theorem exec_rndVxNn (x : Nibble) (nn : Byte) (s : State) :
    exec (.rndVxNn x nn) s = .next (s.advance.countDraw.setReg x (Config.randomByte s.draws &&& nn)) := rfl

theorem exec_drwVxVyN (x y n : Nibble) (s : State) :
    exec (.drwVxVyN x y n) s = s.guardRange hardware n.toNat
      ((s.advance.setDisplay (s.blit hardware x y n).display).setReg vf (flagByte (s.blit hardware x y n).collide)) :=
  rfl

theorem exec_skpVx (x : Nibble) (s : State) : exec (.skpVx x) s = s.keySkip hardware true x := rfl

theorem exec_sknpVx (x : Nibble) (s : State) : exec (.sknpVx x) s = s.keySkip hardware false x := rfl

theorem exec_addIVx (x : Nibble) (s : State) :
    exec (.addIVx x) s = .next (s.advance.setIndex (BitVec.ofNat 16 ((s.i.toNat + (s.reg x).toNat) % 4096))) := rfl

theorem exec_ldBVx (x : Nibble) (s : State) :
    exec (.ldBVx x) s = s.guardRange hardware 3 (s.advance.storeBytes s.i.toNat (decimalDigits (s.reg x))) := rfl

theorem exec_ldMemVx (x : Nibble) (s : State) :
    exec (.ldMemVx x) s =
      s.guardRange hardware (x.toNat + 1) (s.advance.storeBytes s.i.toNat (s.regsUpTo x)) := rfl

theorem exec_ldVxMem (x : Nibble) (s : State) :
    exec (.ldVxMem x) s = s.guardRange hardware (x.toNat + 1) (s.advance.loadRegs x) := rfl

/-- The scan of FX0A has a lowest pressed key, or finds none pressed (R193, R194). -/
theorem State.scan_cases (s : State) :
    (∃ k, k < hardware.fx0aScanEnd ∧ s.keyDown k = true ∧ ∀ j < k, s.keyDown j = false) ∨
      ∀ k < hardware.fx0aScanEnd, s.keyDown k = false := by
  cases hscan : s.firstKey hardware.fx0aScanEnd with
  | some k => exact .inl ⟨k, State.firstKey_eq_some.1 hscan⟩
  | none => exact .inr (State.firstKey_eq_none.1 hscan)

/-! ### The key skips (R190 to R192) -/

theorem State.keySkip_of_key {s : State} {x : Nibble} (h : (s.reg x).toNat < hardware.numKeys) (wanted : Bool) :
    s.keySkip hardware wanted x = .next (s.advance.skipIf (s.keyDown (s.reg x).toNat == wanted)) := by
  rw [State.keySkip, keyIndex_fault_some rfl h]
  rfl

theorem State.keySkip_of_no_key {s : State} {x : Nibble} (h : hardware.numKeys ≤ (s.reg x).toNat) (wanted : Bool) :
    s.keySkip hardware wanted x = .next (s.raise .addressOutOfRange (zext16 (s.reg x))) := by
  rw [State.keySkip, keyIndex_fault_none rfl h]
  rfl

/-! ### The stack (R29 to R32, R100, R102) -/

theorem State.push_of_room {s : State} (h : s.sp.val < hardware.stackCapacity) (w : Word) :
    s.push hardware w =
      some { s with stack := s.stack.set s.sp.val w h, sp := ⟨s.sp.val + 1, Nat.succ_lt_succ h⟩ } :=
  dif_pos ⟨h, h⟩

/-- The index of the most recent entry is in the stack. -/
theorem State.pred_sp_lt {s : State} (h : 0 < s.sp.val) : s.sp.val - 1 < hardware.stackCapacity := by
  have := s.sp.isLt
  omega

theorem State.pop_of_pos {s : State} (h : 0 < s.sp.val) :
    s.pop = some (s.stack[s.sp.val - 1]'(pred_sp_lt h),
      { s with sp := ⟨s.sp.val - 1, Nat.lt_succ_of_lt (pred_sp_lt h)⟩ }) :=
  dif_neg h.ne'

/-- The stack after a push, entry by entry. -/
theorem getElem_stack_set {s : State} (h : s.sp.val < hardware.stackCapacity) (w : Word)
    (k : Fin hardware.stackCapacity) :
    (s.stack.set s.sp.val w h)[k] = if k.val = s.sp.val then w else s.stack[k] := by
  simp only [Fin.getElem_fin, Vector.getElem_set, eq_comm]

theorem exec_call_of_room {s : State} (h : s.sp.val < hardware.stackCapacity) (nnn : Address) :
    exec (.call nnn) s = .next { s with
      stack := s.stack.set s.sp.val (s.pc + 2) h, sp := ⟨s.sp.val + 1, Nat.succ_lt_succ h⟩, pc := zext16 nnn } := by
  rw [exec_call, State.push_of_room (s := s.advance) h]
  rfl

theorem exec_call_of_full {s : State} (h : s.sp.val = hardware.stackCapacity) (nnn : Address) :
    exec (.call nnn) s = .next (s.raise .stackOverflow s.pc) := by
  rw [exec_call, State.push_of_full (s := s.advance) (.inr h)]
  rfl

theorem exec_ret_of_pos {s : State} (h : 0 < s.sp.val) :
    exec .ret s = .next { s with
      pc := s.stack[s.sp.val - 1]'(State.pred_sp_lt h)
      sp := ⟨s.sp.val - 1, Nat.lt_succ_of_lt (State.pred_sp_lt h)⟩ } := by
  rw [exec_ret, State.pop_of_pos (s := s.advance) h]
  rfl

theorem exec_ret_of_empty {s : State} (h : s.sp.val = 0) : exec .ret s = .next (s.raise .stackUnderflow s.pc) := by
  rw [exec_ret, State.pop_of_empty (s := s.advance) (Fin.ext h)]
  rfl

/-! ### Bounds on the values that control and index instructions write -/

/-- BNNN's sum is exact: the highest, 0xFF + 0xFFF, is below 2^16 (R103). -/
theorem toNat_indexedTarget (b : Byte) (nnn : Address) : (indexedTarget b nnn).toNat = b.toNat + nnn.toNat := by
  have hb : (zext16 b).toNat = b.toNat := BitVec.toNat_setWidth_of_le (by decide)
  have hsum : b.toNat + nnn.toNat < 2 ^ 16 := by have := b.isLt; have := nnn.isLt; omega
  rw [indexedTarget, BitVec.toNat_add, hb, toNat_zext16_address, Nat.mod_eq_of_lt hsum]

/-- FX1E keeps `I` below 4096 under this hardware's policy (R151). -/
theorem toNat_ofNat_mod_4096 (n : Nat) : (BitVec.ofNat 16 (n % 4096)).toNat = n % 4096 := by
  rw [BitVec.toNat_ofNat]
  omega

/-! ### The parts that an instruction writes -/

/-- The load of V[0..X] writes the registers alone (R156). -/
theorem State.loadRegs_eq (s : State) (x : Nibble) : s.loadRegs x = { s with v := (s.loadRegs x).v } := rfl

/-- What an instruction leaves when it completes without an error, by the parts of the state that it writes. -/
inductive Completes (s : State) : Instr → State → Prop
  | movePc (i : Instr) (p : Word) (hp : p = s.pc ∨ p = s.pc + 2 ∨ p = s.pc + 4 ∨ p.toNat ≤ 0x10FE) :
      Completes s i { s with pc := p }
  | setReg (i : Instr) (x : Nibble) (b : Byte) (hx : i.writesReg x = true) : Completes s i (s.advance.setReg x b)
  | setRegFlag (i : Instr) (x : Nibble) (b : Byte) (f : Bool) (hx : i.writesReg x = true)
      (hf : i.writesReg vf = true) : Completes s i (s.advance.setRegFlag true x b f)
  | rndVxNn (x : Nibble) (nn b : Byte) : Completes s (.rndVxNn x nn) (s.advance.countDraw.setReg x b)
  | loadRegs (x : Nibble) (v : Vector (BitVec hardware.vWidth) hardware.numV) (hv : v = (s.loadRegs x).v) :
      Completes s (.ldVxMem x) { s with v := v, pc := s.pc + 2 }
  | storeBytes (i : Instr) (bs : List Byte) (hlength : bs.length = i.storedBytes)
      (hfits : s.i.toNat + bs.length ≤ hardware.memSize) : Completes s i (s.advance.storeBytes s.i.toNat bs)
  | ldINnn (nnn : Address) : Completes s (.ldINnn nnn) (s.advance.setIndex (zext16 nnn))
  | addIVx (x : Nibble) (n : Nat) : Completes s (.addIVx x) (s.advance.setIndex (BitVec.ofNat 16 (n % 4096)))
  | ldFVx (x : Nibble) (b : Byte) :
      Completes s (.ldFVx x) (s.advance.setIndex (glyphAddress hardware.glyphBytes b))
  | ldDtVx (x : Nibble) (b : Byte) : Completes s (.ldDtVx x) (s.advance.setDelay b)
  | ldStVx (x : Nibble) (b : Byte) : Completes s (.ldStVx x) (s.advance.setSound b)
  | cls (d : Display) : Completes s .cls (s.advance.setDisplay d)
  | drwVxVyN (x y n : Nibble) (d : Display) (b : Byte) :
      Completes s (.drwVxVyN x y n) ((s.advance.setDisplay d).setReg vf b)
  | ret (h : 0 < s.sp.val) : Completes s .ret { s with
      pc := s.stack[s.sp.val - 1]'(State.pred_sp_lt h)
      sp := ⟨s.sp.val - 1, Nat.lt_succ_of_lt (State.pred_sp_lt h)⟩ }
  | call (nnn : Address) (h : s.sp.val < hardware.stackCapacity) : Completes s (.call nnn) { s with
      stack := s.stack.set s.sp.val (s.pc + 2) h, sp := ⟨s.sp.val + 1, Nat.succ_lt_succ h⟩, pc := zext16 nnn }

/-- The error of an instruction: only the latch is written, by one that may raise (R212, R216). -/
abbrev Raises (s : State) (i : Instr) (t : State) : Prop :=
  i.mayRaise = true ∧ ∃ (e : ExecError) (info : Word), t = s.raise e info

theorem Completes.skipIf (s : State) (i : Instr) (c : Bool) : Completes s i (s.advance.skipIf c) := by
  rw [State.skipIf_advance]
  refine .movePc i _ ?_
  split
  · exact .inr (.inr (.inl rfl))
  · exact .inr (.inl rfl)

/-- EX9E and EXA1 move `pc` or raise (R190). -/
theorem completes_or_raises_of_keySkip {i : Instr} {s t : State} {wanted : Bool} {x : Nibble}
    (hi : i.mayRaise = true) (h : s.keySkip hardware wanted x = .next t) : Completes s i t ∨ Raises s i t := by
  obtain ⟨-, rfl⟩ | ⟨-, rfl⟩ := State.keySkip_cases rfl h
  · exact .inl (.skipIf s i _)
  · exact .inr ⟨hi, _, _, rfl⟩

/-- A transfer through `I` completes with its range inside memory, or raises (R55, R157). -/
theorem completes_or_raises_of_guardRange {i : Instr} {s t u : State} {n : Nat} (hi : i.mayRaise = true)
    (h : s.guardRange hardware n u = .next t) (hu : rangeFits hardware s.i n = true → Completes s i u) :
    Completes s i t ∨ Raises s i t := by
  obtain ⟨hfits, rfl⟩ | ⟨-, rfl⟩ := State.guardRange_cases h
  · exact .inl (hu hfits)
  · exact .inr ⟨hi, _, _, rfl⟩

/-- A store of as many bytes as the checked range has. -/
theorem Completes.storeBytes_of_fits {i : Instr} {s : State} {n : Nat} {bs : List Byte} (hi : i.storedBytes = n)
    (hlength : bs.length = n) (hn : n ≠ 0) (hfits : rangeFits hardware s.i n = true) :
    Completes s i (s.advance.storeBytes s.i.toNat bs) := by
  have hend : s.i.toNat + n ≤ hardware.memSize := ((rangeFits_iff _ _ _).1 hfits).resolve_left hn
  exact .storeBytes i bs (hlength.trans hi.symm) (hlength ▸ hend)

/-- Every instruction completes, and writes only its own parts of the state, or raises, and writes only the latch. -/
theorem exec_cases {i : Instr} {s t : State} (h : exec i s = .next t) : Completes s i t ∨ Raises s i t := by
  cases i with
  | ret =>
    obtain hempty | hpos := Nat.eq_zero_or_pos s.sp.val
    · cases (exec_ret_of_empty hempty).symm.trans h
      exact .inr ⟨rfl, _, _, rfl⟩
    · cases (exec_ret_of_pos hpos).symm.trans h
      exact .inl (.ret hpos)
  | call nnn =>
    obtain hfull | hroom := Nat.eq_or_lt_of_le (Nat.le_of_lt_succ s.sp.isLt)
    · cases (exec_call_of_full hfull nnn).symm.trans h
      exact .inr ⟨rfl, _, _, rfl⟩
    · cases (exec_call_of_room hroom nnn).symm.trans h
      exact .inl (.call nnn hroom)
  | skpVx x => exact completes_or_raises_of_keySkip rfl h
  | sknpVx x => exact completes_or_raises_of_keySkip rfl h
  | drwVxVyN x y n => exact completes_or_raises_of_guardRange rfl h fun _ => .drwVxVyN x y n _ _
  | ldBVx x =>
    exact completes_or_raises_of_guardRange rfl h (.storeBytes_of_fits rfl (length_decimalDigits _) (by decide))
  | ldMemVx x =>
    exact completes_or_raises_of_guardRange rfl h (.storeBytes_of_fits rfl (s.length_regsUpTo x) (Nat.succ_ne_zero _))
  | ldVxMem x => exact completes_or_raises_of_guardRange rfl h fun _ =>
    s.advance.loadRegs_eq x ▸ .loadRegs x _ rfl
  | ldVxK x =>
    obtain ⟨k, hk, hdown, hlowest⟩ | hnone := s.scan_cases
    · cases (exec_ldVxK_of_pressed x hk hdown hlowest).symm.trans h
      exact .inl (.setReg _ x _ (beq_self_eq_true x))
    · cases (exec_ldVxK_of_none_pressed x hnone).symm.trans h
      exact .inl (.movePc _ s.pc (.inl rfl))
  | jp nnn =>
    cases h
    have hbound : (zext16 nnn).toNat ≤ 0x10FE := by rw [toNat_zext16_address]; have := nnn.isLt; omega
    exact .inl (.movePc _ _ (.inr (.inr (.inr hbound))))
  | jpV0Nnn nnn =>
    cases h
    have hbound : (indexedTarget (s.reg 0) nnn).toNat ≤ 0x10FE := by
      rw [toNat_indexedTarget]; have := nnn.isLt; have := (s.reg 0).isLt; omega
    exact .inl (.movePc _ _ (.inr (.inr (.inr hbound))))
  | seVxNn | sneVxNn | seVxVy | sneVxVy => cases h; exact .inl (.skipIf s _ _)
  | ldVxNn x | addVxNn x | ldVxVy x | orVxVy x | andVxVy x | xorVxVy x | ldVxDt x =>
    cases h; exact .inl (.setReg _ x _ (beq_self_eq_true x))
  | addVxVy x | subVxVy x | shrVx x | subnVxVy x | shlVx x =>
    cases h; exact .inl (.setRegFlag _ x _ _ (by simp [Instr.writesReg]) (by simp [Instr.writesReg]))
  | rndVxNn x nn => cases h; exact .inl (.rndVxNn x nn _)
  | ldINnn nnn => cases h; exact .inl (.ldINnn nnn)
  | addIVx x => cases h; exact .inl (.addIVx x _)
  | ldFVx x => cases h; exact .inl (.ldFVx x _)
  | ldDtVx x => cases h; exact .inl (.ldDtVx x _)
  | ldStVx x => cases h; exact .inl (.ldStVx x _)
  | cls => cases h; exact .inl (.cls _)

/-! ### Nothing stops the machine -/

theorem State.orRaise_answers (s : State) (e : ExecError) (info : Word) (o : Option State) :
    ∃ t, s.orRaise e info o = .next t := by
  cases o with
  | none => exact ⟨_, rfl⟩
  | some t => exact ⟨t, rfl⟩

theorem exec_answers (i : Instr) (s : State) : ∃ t, exec i s = .next t := by
  cases i with
  | ret | call | skpVx | sknpVx | drwVxVyN | ldBVx | ldMemVx | ldVxMem => exact s.orRaise_answers _ _ _
  | ldVxK x =>
    obtain ⟨k, hk, hdown, hlowest⟩ | hnone := s.scan_cases
    · exact ⟨_, exec_ldVxK_of_pressed x hk hdown hlowest⟩
    · exact ⟨s, exec_ldVxK_of_none_pressed x hnone⟩
  | _ => exact ⟨_, rfl⟩

theorem step_answers (s : State) : ∃ t, step s = .next t := by
  unfold step
  split
  · split
    · split
      · exact exec_answers _ s
      · exact ⟨_, rfl⟩
    · exact ⟨_, rfl⟩
  · exact ⟨_, rfl⟩

/-- Settles O11: an error is a next state, so the only question is which. -/
theorem everyStepAnswersNext : Obligations.EveryStepAnswersNext := ⟨exec_answers, step_answers⟩

end Sys2Proof.Machine
end

section
/-! PROOFS. The invariant (spec/10_state.md R25, R26, R28): every instruction, every step and every transaction of the
host keep it. -/

namespace Sys2Proof.Machine

/-- `pc` is at most 0xFFE where a step fetches, so two or four bytes on it is below 0x10FE (R25, R72). -/
theorem pc_le_of_moved {s : State} {p : Word} (hfetch : s.pc.toNat + 1 < hardware.memSize)
    (hp : p = s.pc ∨ p = s.pc + 2 ∨ p = s.pc + 4 ∨ p.toNat ≤ 0x10FE) : p.toNat ≤ 0x10FE := by
  rw [hardware_memSize] at hfetch
  obtain rfl | rfl | rfl | hp := hp
  · omega
  · bv_omega
  · bv_omega
  · exact hp

/-- The return address of a call is the highest stack entry, 0x1000 (R74, R102). -/
theorem returnAddress_le {s : State} (hfetch : s.pc.toNat + 1 < hardware.memSize) :
    (s.pc + 2).toNat ≤ hardware.memSize := by
  rw [hardware_memSize] at hfetch ⊢
  bv_omega

/-- Raising writes only the latch, of which the invariant does not speak. -/
theorem State.Inv.raise {s : State} (hs : s.Inv) (e : ExecError) (info : Word) : (s.raise e info).Inv := hs

/-- What an instruction leaves where it completes meets the invariant, by the parts that it writes. -/
theorem State.Inv.of_completes {s t : State} {i : Instr} (hs : s.Inv) (hfetch : s.pc.toNat + 1 < hardware.memSize)
    (h : Completes s i t) : t.Inv := by
  obtain ⟨hmem, hindex, -, hstack⟩ := hs
  have hadvance : (s.pc + 2).toNat ≤ 0x10FE := pc_le_of_moved hfetch (.inr (.inl rfl))
  cases h with
  | movePc _ p hp => exact ⟨hmem, hindex, pc_le_of_moved hfetch hp, hstack⟩
  | setReg | setRegFlag | rndVxNn | loadRegs | ldDtVx | ldStVx | cls | drwVxVyN =>
    exact ⟨hmem, hindex, hadvance, hstack⟩
  | storeBytes _ bs _ hfits => exact ⟨memWf_writeList hmem bs hfits, hindex, hadvance, hstack⟩
  | ldINnn nnn =>
    have hbound : (zext16 nnn).toNat < hardware.memSize := by rw [toNat_zext16_address]; exact nnn.isLt
    exact ⟨hmem, hbound, hadvance, hstack⟩
  | addIVx _ n =>
    have hbound : (BitVec.ofNat 16 (n % 4096)).toNat < hardware.memSize := by
      rw [toNat_ofNat_mod_4096]; exact Nat.mod_lt _ (by decide)
    exact ⟨hmem, hbound, hadvance, hstack⟩
  | ldFVx _ b =>
    have hbound : (glyphAddress hardware.glyphBytes b).toNat < hardware.memSize := by
      rw [toNat_glyphAddress_hardware]
      have := b.isLt
      show 5 * b.toNat < 4096
      omega
    exact ⟨hmem, hbound, hadvance, hstack⟩
  | ret hpos =>
    have hbound : (s.stack[s.sp.val - 1]'(State.pred_sp_lt hpos)).toNat ≤ 0x10FE :=
      (hstack ⟨_, State.pred_sp_lt hpos⟩).trans (by decide)
    exact ⟨hmem, hindex, hbound, hstack⟩
  | call nnn hroom =>
    have hbound : (zext16 nnn).toNat ≤ 0x10FE := by rw [toNat_zext16_address]; have := nnn.isLt; omega
    refine ⟨hmem, hindex, hbound, fun k => ?_⟩
    refine (congrArg BitVec.toNat (getElem_stack_set hroom _ k)).trans_le ?_
    split
    · exact returnAddress_le hfetch
    · exact hstack k

theorem State.Inv.step {s t : State} (hs : s.Inv) (h : step s = .next t) : t.Inv := by
  obtain ⟨-, rfl⟩ | ⟨-, -, rfl⟩ | ⟨-, hfits, i, -, hexec⟩ | ⟨-, hfits, -, rfl⟩ := step_cases h
  · exact hs
  · exact hs.raise _ _
  · obtain hdone | ⟨-, e, info, rfl⟩ := exec_cases hexec
    · exact hs.of_completes (s.fetchFits_iff.1 hfits) hdone
    · exact hs.raise e info
  · obtain ⟨hmem, hindex, -, hstack⟩ := hs
    exact ⟨hmem, hindex, pc_le_of_moved (s.fetchFits_iff.1 hfits) (.inr (.inl rfl)), hstack⟩

/-- Settles O55: an instruction that completes writes values within the bounds, one that raises writes the latch. -/
theorem stepKeepsInvariant : Obligations.StepKeepsInvariant :=
  ⟨rfl, rfl, rfl, rfl, rfl, rfl, rfl, rfl, rfl, fun _ _ hs h => hs.step h⟩

/-- Settles O54: reset memory lists nothing, and every other element in the invariant is 0 or `ROM_BASE`. -/
theorem resetMeetsInvariant : Obligations.ResetMeetsInvariant :=
  ⟨rfl, rfl, rfl, rfl, rfl, rfl, memWf_reset, by decide, by decide, by decide⟩

/-! ### Schedules -/

/-- A load that is accepted meets the invariant: its ROM fits in memory (R250, R252). -/
theorem State.Inv.of_load {n : Nat} {source : RomSource} {s : State} (h : load n source = .ok s) : s.Inv := by
  obtain ⟨-, -, -, -, -, -, -, hindex, hpc, hstack⟩ := resetMeetsInvariant
  cases source with
  | none => cases h
  | some bytes =>
    by_cases hlength : bytes.length ≤ hardware.romMax
    · rw [load_fits n hlength] at h
      obtain rfl := Except.ok.inj h
      have hfits : hardware.romBase + bytes.length ≤ hardware.memSize :=
        (Nat.add_le_add_left hlength _).trans_eq romArea
      exact ⟨memWf_writeList memWf_reset bytes hfits, hindex, hpc, hstack⟩
    · rw [load_too_large n (Nat.lt_of_not_le hlength)] at h
      cases h

/-- They differ at most in what the host's inputs and ticks write: timers, sound output, keypad, execution state. -/
abbrev SameButHostSide (s t : State) : Prop :=
  t = { s with dt := t.dt, st := t.st, soundActive := t.soundActive, keys := t.keys, execState := t.execState }

/-- What a transaction can do: load a new state, run a step, or write the host's side alone. -/
theorem State.after_cases (s : State) (t : Transaction) :
    (∃ source, t = .load source ∧ load s.draws source = .ok (s.after t)) ∨
      (t = .step ∧ step s = .next (s.after t)) ∨ SameButHostSide s (s.after t) := by
  cases t with
  | load source =>
    cases hload : load s.draws source with
    | ok u => exact .inl ⟨source, rfl, by simp only [State.after, transact, hload]⟩
    | error e => exact .inr (.inr (by simp only [State.after, transact, hload]))
  | step =>
    obtain ⟨u, hu⟩ := step_answers s
    exact .inr (.inl ⟨rfl, by rw [State.after_step hu, hu]⟩)
  | setKey k p =>
    by_cases hk : k < hardware.numKeys
    · rw [State.after_setKey s hk]; exact .inr (.inr rfl)
    · exact .inr (.inr (by simp only [State.after, transact, if_neg hk]))
  | tickTimers | pause | resume | quit | readDisplay | readSound | readFault => exact .inr (.inr rfl)

/-- The invariant does not speak of the host's side. -/
theorem State.Inv.of_sameButHostSide {s t : State} (hs : s.Inv) (h : SameButHostSide s t) : t.Inv := by
  rw [h]
  exact hs

theorem State.Inv.after {s : State} (hs : s.Inv) (t : Transaction) : (s.after t).Inv := by
  obtain ⟨source, -, hload⟩ | ⟨-, hstep⟩ | hsame := s.after_cases t
  · exact .of_load hload
  · exact hs.step hstep
  · exact hs.of_sameButHostSide hsame

/-- Settles O56: by induction on the schedule, each of whose transactions keeps the invariant. -/
theorem schedulesKeepInvariant : Obligations.SchedulesKeepInvariant := by
  refine ⟨rfl, rfl, rfl, rfl, rfl, rfl, rfl, rfl, rfl, rfl, rfl, le_refl _, fun ts => ?_⟩
  induction ts with
  | nil => exact fun s hs => hs
  | cons t ts ih => exact fun s hs => ih (s.after t) (hs.after t)

end Sys2Proof.Machine
end

section
/-! PROOFS. Frames over all instructions: what each leaves unchanged, read off the parts that it writes. -/

namespace Sys2Proof.Machine

/-- No instruction that completes writes the latch, the keypad, the execution state or the sound output. -/
theorem Completes.hostSide {s t : State} {i : Instr} (h : Completes s i t) :
    t.fault = s.fault ∧ t.keys = s.keys ∧ t.execState = s.execState ∧ t.soundActive = s.soundActive := by
  cases h <;> exact ⟨rfl, rfl, rfl, rfl⟩

/-- Settles O45: what completes keeps the latch, and what raises is listed. -/
theorem onlyListedInstructionsRaise : Obligations.OnlyListedInstructionsRaise := by
  intro i s t hi h
  obtain hdone | ⟨hraise, -⟩ := exec_cases h
  · exact hdone.hostSide.1
  · rw [hi] at hraise
    contradiction

theorem Completes.reg_eq {s t : State} {i : Instr} {k : Nibble} (h : Completes s i t) (hk : i.writesReg k = false) :
    t.reg k = s.reg k := by
  have hne {x : Nibble} (hx : i.writesReg x = true) : k ≠ x := by
    rintro rfl
    rw [hk] at hx
    contradiction
  cases h with
  | setReg _ x b hx => exact State.reg_setReg_of_ne _ b (hne hx)
  | setRegFlag _ x b f hx hf => rw [State.reg_setRegFlag_last, if_neg (hne hf), if_neg (hne hx), State.advance_reg]
  | rndVxNn x nn b => exact State.reg_setReg_of_ne _ b (hne (beq_self_eq_true x))
  | drwVxVyN x y n d b => exact State.reg_setReg_of_ne _ b (hne rfl)
  | loadRegs x v hv =>
    subst hv
    exact (s.reg_loadRegs x k).trans (if_neg (of_decide_eq_false hk))
  | _ => rfl

/-- Settles O46: every register write is of a register that the instruction lists. -/
theorem registersFrame : Obligations.RegistersFrame := by
  refine ⟨by decide, rfl, fun i s t k h hk => ?_⟩
  obtain hdone | ⟨-, e, info, rfl⟩ := exec_cases h
  · exact hdone.reg_eq hk
  · rfl

theorem Completes.byteAt_eq {s t : State} {i : Instr} {a : Nat} (h : Completes s i t)
    (ha : a < s.i.toNat ∨ s.i.toNat + i.storedBytes ≤ a) : t.byteAt a = s.byteAt a := by
  cases h with
  | storeBytes _ bs hlength => exact memRead_writeList_outside s.mem bs (hlength ▸ ha)
  | _ => rfl

/-- Settles O47: the one write of memory is of as many bytes, from `I` up, as the instruction stores. -/
theorem memoryFrame : Obligations.MemoryFrame := by
  refine ⟨rfl, rfl, rfl, fun i s t a h ha => ?_⟩
  obtain hdone | ⟨-, e, info, rfl⟩ := exec_cases h
  · exact hdone.byteAt_eq ha
  · rfl

/-- Settles O48: 00E0 and DXYN are the two that write the display. -/
theorem displayFrame : Obligations.DisplayFrame := by
  intro i s t h hcls hdrw
  obtain hdone | ⟨-, e, info, rfl⟩ := exec_cases h
  · cases hdone with
    | cls => exact absurd rfl hcls
    | drwVxVyN x y n => exact absurd rfl (hdrw x y n)
    | _ => rfl
  · rfl

/-- Settles O49: 2NNN and 00EE are the two that write the stack or `SP`. -/
theorem stackFrame : Obligations.StackFrame := by
  intro i s t h hret hcall
  obtain hdone | ⟨-, e, info, rfl⟩ := exec_cases h
  · cases hdone with
    | ret => exact absurd rfl hret
    | call nnn => exact absurd rfl (hcall nnn)
    | _ => exact ⟨rfl, rfl⟩
  · exact ⟨rfl, rfl⟩

/-- Settles O50: each of the five writers of `I`, DT and ST is excluded where its part must stay. -/
theorem indexAndTimerFrame : Obligations.IndexAndTimerFrame := by
  intro i s t h
  obtain hdone | ⟨-, e, info, rfl⟩ := exec_cases h
  · cases hdone with
    | ldINnn nnn => exact ⟨fun hne _ _ => absurd rfl (hne nnn), fun _ => rfl, fun _ => rfl⟩
    | addIVx x => exact ⟨fun _ hne _ => absurd rfl (hne x), fun _ => rfl, fun _ => rfl⟩
    | ldFVx x => exact ⟨fun _ _ hne => absurd rfl (hne x), fun _ => rfl, fun _ => rfl⟩
    | ldDtVx x => exact ⟨fun _ _ _ => rfl, fun hne => absurd rfl (hne x), fun _ => rfl⟩
    | ldStVx x => exact ⟨fun _ _ _ => rfl, fun _ => rfl, fun hne => absurd rfl (hne x)⟩
    | _ => exact ⟨fun _ _ _ => rfl, fun _ => rfl, fun _ => rfl⟩
  · exact ⟨fun _ _ _ => rfl, fun _ => rfl, fun _ => rfl⟩

/-- Settles O51: no part of the host's side is written, and CXNN alone counts a draw. -/
theorem hostSideFrame : Obligations.HostSideFrame := by
  intro i s t h
  obtain hdone | ⟨-, e, info, rfl⟩ := exec_cases h
  · obtain ⟨-, hkeys, hexec, hsound⟩ := hdone.hostSide
    refine ⟨hkeys, hexec, hsound, fun hrnd => ?_⟩
    cases hdone with
    | rndVxNn x nn => exact absurd rfl (hrnd x nn)
    | _ => rfl
  · exact ⟨rfl, rfl, rfl, fun _ => rfl⟩

end Sys2Proof.Machine
end

section
/-! PROOFS. What instructions cannot learn: ST, the sound output, the execution state and the stale stack entries are
read by none, by two runs from states that differ in them. -/

namespace Sys2Proof.Machine

/-- The state with other values in the stack, ST, the sound output and the execution state: the first is left to 2NNN
and 00EE, the second to FX18, the others to the host. -/
abbrev State.withUnread (stack : Vector (BitVec hardware.stackEntryWidth) hardware.stackCapacity)
    (st : BitVec hardware.timerWidth) (b : Bool) (e : RunState) (s : State) : State :=
  { s with stack := stack, st := st, soundActive := b, execState := e }

section
variable {stack : Vector (BitVec hardware.stackEntryWidth) hardware.stackCapacity} {st : BitVec hardware.timerWidth}
  {b : Bool} {e : RunState}

/-- The bounds check reads `I` alone, and raising reads `pc`. -/
theorem State.guardRange_withUnread {s t u : State} {n : Nat} (h : s.guardRange hardware n t = .next u) :
    (s.withUnread stack st b e).guardRange hardware n (t.withUnread stack st b e) =
      .next (u.withUnread stack st b e) := by
  obtain ⟨hfits, rfl⟩ | ⟨hout, rfl⟩ := State.guardRange_cases h
  · exact State.guardRange_of_fits hfits
  · exact State.guardRange_of_outside hout

/-- The key skips read `V[X]`, the keypad and `pc`. -/
theorem State.keySkip_withUnread {s t : State} {wanted : Bool} {x : Nibble}
    (h : s.keySkip hardware wanted x = .next t) :
    (s.withUnread stack st b e).keySkip hardware wanted x = .next (t.withUnread stack st b e) := by
  obtain ⟨hkey, rfl⟩ | ⟨hout, rfl⟩ := State.keySkip_cases rfl h
  · exact State.keySkip_of_key (s := s.withUnread stack st b e) hkey wanted
  · exact State.keySkip_of_no_key (s := s.withUnread stack st b e) hout wanted

/-- Every instruction but 00EE, 2NNN and FX18 commutes with a change of the parts that it neither reads nor writes. -/
theorem exec_withUnread {i : Instr} {s t : State} (h : exec i s = .next t) (hret : i ≠ .ret)
    (hcall : ∀ nnn, i ≠ .call nnn) (hst : ∀ x, i ≠ .ldStVx x) :
    exec i (s.withUnread stack st b e) = .next (t.withUnread stack st b e) := by
  cases i with
  | ret => exact absurd rfl hret
  | call nnn => exact absurd rfl (hcall nnn)
  | ldStVx x => exact absurd rfl (hst x)
  | skpVx | sknpVx => exact State.keySkip_withUnread h
  | drwVxVyN | ldBVx | ldMemVx => exact State.guardRange_withUnread h
  | ldVxMem x => exact State.guardRange_withUnread (t := s.advance.loadRegs x) h
  | ldVxK x =>
    obtain ⟨k, hk, hdown, hlowest⟩ | hnone := s.scan_cases
    · cases (exec_ldVxK_of_pressed x hk hdown hlowest).symm.trans h
      exact exec_ldVxK_of_pressed (s := s.withUnread stack st b e) x hk hdown hlowest
    · cases (exec_ldVxK_of_none_pressed x hnone).symm.trans h
      exact exec_ldVxK_of_none_pressed (s := s.withUnread stack st b e) x hnone
  | _ => cases h; rfl

/-- The parts of the host's side alone. -/
theorem exec_withSound {i : Instr} {s t : State} (h : exec i s = .next t) (hret : i ≠ .ret)
    (hcall : ∀ nnn, i ≠ .call nnn) (hst : ∀ x, i ≠ .ldStVx x) :
    exec i { s with st := st, soundActive := b, execState := e } =
      .next { t with st := st, soundActive := b, execState := e } := by
  have hrun := exec_withUnread (stack := s.stack) (st := st) (b := b) (e := e) h hret hcall hst
  obtain ⟨hstack, -⟩ := stackFrame i s t h hret hcall
  exact hrun.trans (by rw [State.withUnread, ← hstack])

/-- The stack alone. -/
theorem exec_withStack {i : Instr} {s t : State} (h : exec i s = .next t) (hret : i ≠ .ret)
    (hcall : ∀ nnn, i ≠ .call nnn) : exec i { s with stack := stack } = .next { t with stack := stack } := by
  by_cases hst : ∃ x, i = .ldStVx x
  · obtain ⟨x, rfl⟩ := hst
    cases h
    rfl
  · have hst' := not_exists.1 hst
    have hrun := exec_withUnread (stack := stack) (st := s.st) (b := s.soundActive) (e := s.execState) h hret hcall hst'
    obtain ⟨-, hexec, hsound, -⟩ := hostSideFrame i s t h
    have hsame := (indexAndTimerFrame i s t h).2.2 hst'
    exact hrun.trans (by rw [State.withUnread, ← hexec, ← hsound, ← hsame])

/-- Live entries agree after an instruction that leaves the stack. -/
theorem sameLiveStack_of_exec {i : Instr} {s t : State} (h : exec i s = .next t) (hret : i ≠ .ret)
    (hcall : ∀ nnn, i ≠ .call nnn)
    (hlive : ∀ k : Fin hardware.stackCapacity, k.val < s.sp.val → stack[k] = s.stack[k]) :
    SameLiveStack t { t with stack := stack } := by
  obtain ⟨hstack, hsp⟩ := stackFrame i s t h hret hcall
  refine ⟨rfl, fun k hk => ?_⟩
  rw [hsp] at hk
  rw [hstack]
  exact hlive k hk

end

/-- Settles O52: a call and a return are the same push and pop, FX18 overwrites ST, and the others read no part of the
host's side. -/
theorem soundAndRunStateAreUnread : Obligations.SoundAndRunStateAreUnread := by
  refine ⟨rfl, rfl, fun i s t st b e h => ?_⟩
  cases i with
  | ret =>
    obtain hempty | hpos := Nat.eq_zero_or_pos s.sp.val
    · cases (exec_ret_of_empty hempty).symm.trans h
      exact exec_ret_of_empty (s := { s with st := st, soundActive := b, execState := e }) hempty
    · cases (exec_ret_of_pos hpos).symm.trans h
      exact exec_ret_of_pos (s := { s with st := st, soundActive := b, execState := e }) hpos
  | call nnn =>
    obtain hfull | hroom := Nat.eq_or_lt_of_le (Nat.le_of_lt_succ s.sp.isLt)
    · cases (exec_call_of_full hfull nnn).symm.trans h
      exact exec_call_of_full (s := { s with st := st, soundActive := b, execState := e }) hfull nnn
    · cases (exec_call_of_room hroom nnn).symm.trans h
      exact exec_call_of_room (s := { s with st := st, soundActive := b, execState := e }) hroom nnn
  | ldStVx x => cases h; rfl
  | _ => exact exec_withSound h nofun nofun nofun

/-- Settles O53: a return reads the entry below `SP`, a call writes the same entry on both sides, and the others do not
read the stack. -/
theorem staleStackEntriesAreUnread : Obligations.StaleStackEntriesAreUnread := by
  refine ⟨rfl, rfl, rfl, fun i s s' t ⟨hs', hlive⟩ h => ?_⟩
  generalize s'.stack = stack at hs' hlive
  subst hs'
  cases i with
  | ret =>
    obtain hempty | hpos := Nat.eq_zero_or_pos s.sp.val
    · cases (exec_ret_of_empty hempty).symm.trans h
      exact ⟨_, exec_ret_of_empty (s := { s with stack := stack }) hempty, rfl, hlive⟩
    · cases (exec_ret_of_pos hpos).symm.trans h
      refine ⟨_, exec_ret_of_pos (s := { s with stack := stack }) hpos, ?_, fun k hk => hlive k ?_⟩
      · have hpop := hlive ⟨_, State.pred_sp_lt hpos⟩ (Nat.sub_one_lt_of_lt hpos)
        simp only [Fin.getElem_fin] at hpop
        simp only [hpop]
      · exact hk.trans (Nat.sub_one_lt_of_lt hpos)
  | call nnn =>
    obtain hfull | hroom := Nat.eq_or_lt_of_le (Nat.le_of_lt_succ s.sp.isLt)
    · cases (exec_call_of_full hfull nnn).symm.trans h
      exact ⟨_, exec_call_of_full (s := { s with stack := stack }) hfull nnn, rfl, hlive⟩
    · cases (exec_call_of_room hroom nnn).symm.trans h
      refine ⟨_, exec_call_of_room (s := { s with stack := stack }) hroom nnn, rfl, fun k hk => ?_⟩
      have hpushed := getElem_stack_set (s := { s with stack := stack }) hroom (s.pc + 2) k
      refine hpushed.trans (Eq.trans ?_ (getElem_stack_set hroom (s.pc + 2) k).symm)
      by_cases htop : k.val = s.sp.val
      · rw [if_pos htop, if_pos htop]
      · rw [if_neg htop, if_neg htop]
        exact hlive k (Nat.lt_of_le_of_ne (Nat.le_of_lt_succ hk) htop)
  | _ => exact ⟨_, exec_withStack h nofun nofun, sameLiveStack_of_exec h nofun nofun hlive⟩

end Sys2Proof.Machine
end

section
/-! PROOFS. The step cycle and its errors (spec/30_encoding.md R70 to R78, spec/60_exceptions.md R215 to R217): the
gate, the fetch bound, what a step that raises changes, and that a latched fault is final. -/

namespace Sys2Proof.Machine

/-! ### The gate and the fetch bound -/

theorem step_of_gate_shut {s : State} (h : s.gateOpen = false) : step s = .next s := by
  rw [step, h]
  rfl

theorem State.gateOpen_of_latched {s : State} {r : FaultRecord} (h : s.fault = some r) : s.gateOpen = false := by
  rw [State.gateOpen, h]
  rfl

theorem State.gateOpen_of_not_running {s : State} (h : s.execState ≠ .running) : s.gateOpen = false := by
  rw [State.gateOpen, decide_eq_false h, Bool.and_false]

/-- With the gate open, a fetch past the end of memory raises (R72). -/
theorem step_of_fetch_overrun {s : State} (hfault : s.fault = none) (hrun : s.execState = .running)
    (hpc : hardware.memSize ≤ s.pc.toNat + 1) : step s = .next (s.raise .addressOutOfRange s.pc) := by
  have hgate : s.gateOpen = true := s.gateOpen_iff.2 ⟨hfault, hrun⟩
  have hfetch : ¬ s.fetchFits = true := fun h => Nat.not_lt.2 hpc (s.fetchFits_iff.1 h)
  rw [step, if_pos hgate, if_neg hfetch]
  rfl

/-- A step with a fault latched after it answers `Err` of its code (R78). -/
theorem transact_step_err {s t : State} {r : FaultRecord} (h : step s = .next t) (hfault : t.fault = some r) :
    transact .step s = .next (t, .err r.code) := by
  rw [transact, h]
  simp only [State.stepResponse, hfault]

/-- Settles O7: with the gate open and the fetch in range, the step is the meaning of the decoded instruction. -/
theorem stepRunsDecodedInstruction : Obligations.StepRunsDecodedInstruction :=
  ⟨rfl, rfl, fun _ _ hs h _ => step_of_decode_ok hs h⟩

/-- Settles O9: either condition shuts the gate, and the response is read off the latch. -/
theorem gateHoldsTheStep : Obligations.GateHoldsTheStep := by
  refine ⟨fun s r hfault => ?_, fun s hfault hrun => ?_⟩
  · have hstep := step_of_gate_shut (State.gateOpen_of_latched hfault)
    exact ⟨hstep, transact_step_err hstep hfault⟩
  · have hstep := step_of_gate_shut (State.gateOpen_of_not_running hrun)
    exact ⟨hstep, transact_step_ok hstep hfault⟩

/-- Settles O10: the bound is checked before any read, and the error is latched at `pc`. -/
theorem fetchOverrunLatches : Obligations.FetchOverrunLatches := by
  refine ⟨rfl, fun s hfault hrun hpc => ?_⟩
  have hstep := step_of_fetch_overrun hfault hrun hpc
  exact ⟨hstep, transact_step_err hstep rfl⟩

/-! ### Errors are precise and final -/

/-- A step that changes the latch passed the gate and raised. -/
theorem raise_of_step_of_fault_ne {s t : State} (h : step s = .next t) (hne : t.fault ≠ s.fault) :
    s.fault = none ∧ ∃ (e : ExecError) (info : Word), t = s.raise e info := by
  obtain ⟨-, rfl⟩ | ⟨hgate, -, rfl⟩ | ⟨hgate, -, i, -, hexec⟩ | ⟨-, -, -, rfl⟩ := step_cases h
  · exact absurd rfl hne
  · exact ⟨(s.gateOpen_iff.1 hgate).1, _, _, rfl⟩
  · obtain hdone | ⟨-, hraise⟩ := exec_cases hexec
    · exact absurd hdone.hostSide.1 hne
    · exact ⟨(s.gateOpen_iff.1 hgate).1, hraise⟩
  · exact absurd rfl hne

/-- Settles O43: the step raised, which writes the latch alone, and its response is the code latched. -/
theorem errorsArePrecise : Obligations.ErrorsArePrecise := by
  refine ⟨rfl, rfl, rfl, rfl, fun s t h hne => ?_⟩
  obtain ⟨hfault, e, info, rfl⟩ := raise_of_step_of_fault_ne h hne
  exact ⟨hfault, e, info, rfl, transact_step_err h rfl, rfl⟩

/-- With a fault latched, a transaction other than a load writes at most the host's side (R217). -/
theorem State.sameButHostSide_after_of_latched {s : State} {t : Transaction} {r : FaultRecord}
    (hfault : s.fault = some r) (hload : ∀ source, t ≠ .load source) : SameButHostSide s (s.after t) := by
  obtain ⟨source, ht, -⟩ | ⟨-, hstep⟩ | hsame := s.after_cases t
  · exact absurd ht (hload source)
  · rw [step_of_gate_shut (State.gateOpen_of_latched hfault)] at hstep
    rw [← Host.Outcome.next.inj hstep]
  · exact hsame

theorem SameButHostSide.trans {s t u : State} (hst : SameButHostSide s t) (htu : SameButHostSide t u) :
    SameButHostSide s u := by
  rw [SameButHostSide, htu, hst]

/-- Settles O44: by induction on the schedule; each transaction keeps the latch, so the gate stays shut. -/
theorem latchedFaultIsFinal : Obligations.LatchedFaultIsFinal := by
  intro ts
  induction ts with
  | nil => exact fun _ _ _ _ => rfl
  | cons t ts ih =>
    intro s r hfault hload
    have hafter : SameButHostSide s (s.after t) :=
      State.sameButHostSide_after_of_latched hfault fun source ht => hload source (ht ▸ List.mem_cons_self)
    have hlatched : (s.after t).fault = some r := hafter ▸ hfault
    have hrest := ih (s.after t) r hlatched fun source hmem => hload source (List.mem_cons_of_mem _ hmem)
    exact hafter.trans hrest

end Sys2Proof.Machine
end

section
/-! PROOFS. The host's transactions (spec/60_exceptions.md R225 to R231) and what a load leaves
(spec/70_reset_and_hazards.md R250). -/

namespace Sys2Proof.Machine

/-- Settles O57: a timer's tick is its decrement, and the sound signal is read before it. -/
theorem tickTimersResult : Obligations.TickTimersResult := by
  refine ⟨rfl, fun s => ⟨s.tickTimers, ?_, tickDown_toNat s.dt, tickDown_toNat s.st,
    s.tickTimers_soundActive_eq_decide_pos, rfl⟩⟩
  rw [transact, s.tickTimers_soundActive_eq_decide_pos]

theorem transact_setKey {s : State} {k : Nat} (hk : k < hardware.numKeys) (p : Bool) :
    transact (.setKey k p) s = .next (s.setKey k p, .nothing) := if_pos hk

theorem transact_setKey_refused {s : State} {k : Nat} (hk : hardware.numKeys ≤ k) (p : Bool) :
    transact (.setKey k p) s = .refused (.noSuchKey k) := if_neg hk.not_gt

theorem State.pause_of_running {s : State} (h : s.execState = .running) :
    s.pause = { s with execState := .paused } := by
  rw [State.pause, if_pos h]

theorem State.resume_of_paused {s : State} (h : s.execState = .paused) :
    s.resume = { s with execState := .running } := by
  rw [State.resume, if_pos h]

/-- From Halted there is no transition (R230; log entry 7). -/
theorem State.pause_resume_of_halted {s : State} (h : s.execState = .halted) : s.pause = s ∧ s.resume = s := by
  constructor
  · rw [State.pause, if_neg (by rw [h]; decide)]
  · rw [State.resume, if_neg (by rw [h]; decide)]

/-- Settles O58: each input is its one write, and a read answers its part of the state. -/
theorem hostInputsResult : Obligations.HostInputsResult :=
  ⟨rfl, rfl, rfl, fun s _ p hk => ⟨_, transact_setKey hk p, s.keyDown_setKey hk p, rfl⟩,
    fun _ _ p hk => transact_setKey_refused hk p, fun _ h => State.pause_of_running h,
    fun _ h => State.resume_of_paused h, fun _ => rfl, fun _ h => State.pause_resume_of_halted h,
    fun _ => ⟨rfl, rfl, rfl⟩⟩

/-! ### What a load leaves -/

/-- An unlisted address of the font table reads as its font byte (R27). -/
theorem resetByteAt_font {a : Nat} (ha : a < hardware.fontBytes) :
    resetByteAt (hardware.fontBase + a) = hardware.font.getD a 0 := by
  rw [resetByteAt, resetByteUnder, if_pos ⟨Nat.le_add_right _ _, Nat.add_lt_add_left ha _⟩, Nat.add_sub_cancel_left]

/-- An unlisted address above the font table reads as 0 (R26, decision D10). -/
theorem resetByteAt_above_font {a : Nat} (ha : hardware.fontBase + hardware.fontBytes ≤ a) : resetByteAt a = 0 := by
  rw [resetByteAt, resetByteUnder, if_neg (fun h => Nat.not_lt.2 ha h.2)]

/-- Outside the ROM a load leaves reset contents. -/
theorem memRead_load_outside {bytes : List Byte} {a : Nat}
    (ha : a < hardware.romBase ∨ hardware.romBase + bytes.length ≤ a) :
    memRead (memWriteList [] hardware.romBase bytes) a = resetByteAt a :=
  memRead_writeList_outside [] bytes ha

/-- The font table lies below the ROM. -/
theorem font_lt_romBase {a : Nat} (ha : a < hardware.fontBytes) : hardware.fontBase + a < hardware.romBase :=
  (Nat.add_lt_add_left ha _).trans (by decide)

theorem State.reg_reset (x : Nibble) : State.reset.reg x = 0 := Vector.getElem_replicate _

theorem State.keyDown_reset (k : Nat) : State.reset.keyDown k = false := by
  by_cases hk : k < hardware.numKeys <;> simp [State.keyDown, State.reset, Vector.getD, hk]

theorem State.stack_reset (k : Fin hardware.stackCapacity) : State.reset.stack[k] = 0 := Vector.getElem_replicate _

/-- Settles O60: a load writes the ROM over reset contents and keeps every other element of the reset state. -/
theorem loadLeavesResetState : Obligations.LoadLeavesResetState := by
  refine ⟨rfl, rfl, rfl, rfl, rfl, rfl, rfl, rfl, rfl, fun n bytes hlength => ?_, load_unreadable,
    fun n => load_fits n (Nat.zero_le _)⟩
  refine ⟨_, load_fits n hlength, fun a ha => ?_, fun k hk => memRead_writeList_inside [] bytes hk, fun a ha hout => ?_,
    State.reg_reset, rfl, rfl, State.stack_reset, rfl, rfl, rfl, Display.lit_clear, State.keyDown_reset, rfl, rfl,
    rfl⟩
  · exact (memRead_load_outside (.inl (font_lt_romBase ha))).trans (resetByteAt_font ha)
  · exact (memRead_load_outside hout).trans (resetByteAt_above_font ha)

end Sys2Proof.Machine
end

section
/-! PROOFS. Control (spec/40_control.md): jumps, the call and the return, and the skips of 5XY0 and 9XY0. -/

namespace Sys2Proof.Machine

/-- The one address from which no fetch is in range is 0xFFF. -/
theorem address_eq_of_fetch_overrun {nnn : Address} (h : hardware.memSize ≤ nnn.toNat + 1) : nnn = 0xFFF := by
  have hlt := nnn.isLt
  rw [hardware_memSize] at h
  bv_omega

/-- A jump to its own address leaves the whole state as it was. -/
theorem State.jump_advance_self {s : State} {nnn : Address} (h : nnn.toNat = s.pc.toNat) :
    s.advance.jump (zext16 nnn) = s := by
  have hpc : zext16 nnn = s.pc := BitVec.eq_of_toNat_eq ((toNat_zext16_address nnn).trans h)
  rw [hpc]
  rfl

/-- Settles O12: the jump writes `pc` alone, and the fetch bound refuses the last address. -/
theorem jumpResult : Obligations.JumpResult := by
  refine ⟨rfl, rfl, decodesAs_jp, fun nnn s => ⟨_, exec_jp nnn s, toNat_zext16_address nnn, rfl,
    State.jump_advance_self, address_eq_of_fetch_overrun, fun hover hfault hrun => ?_⟩⟩
  exact step_of_fetch_overrun hfault hrun ((toNat_zext16_address nnn).symm ▸ hover)

/-- Settles O13: with room the call pushes and jumps, on a full stack it raises. -/
theorem callResult : Obligations.CallResult :=
  ⟨rfl, rfl, fun nnn _ =>
    ⟨fun hroom => ⟨_, exec_call_of_room hroom nnn, toNat_zext16_address nnn, rfl, rfl, getElem_stack_set hroom _⟩,
      fun hfull => exec_call_of_full hfull nnn⟩⟩

/-- Settles O14: the return takes the entry below `SP` as `pc`, on an empty stack it raises. -/
theorem returnResult : Obligations.ReturnResult := by
  refine ⟨rfl, rfl, fun s => ⟨fun hpos => ⟨_, exec_ret_of_pos hpos, fun k hk => ?_, ?_, rfl, rfl⟩, exec_ret_of_empty⟩⟩
  · obtain rfl : k = ⟨s.sp.val - 1, State.pred_sp_lt hpos⟩ := Fin.ext (Nat.eq_sub_of_add_eq hk)
    rfl
  · exact Nat.sub_add_cancel hpos

/-- Settles O15: the return pops the entry that the call pushed. -/
theorem returnUndoesCall : Obligations.ReturnUndoesCall := by
  refine ⟨rfl, rfl, fun nnn s hroom => ⟨_, exec_call_of_room hroom nnn, ?_, getElem_stack_set hroom _⟩⟩
  rw [exec_ret_of_pos (Nat.succ_pos s.sp.val)]
  simp only [Nat.add_sub_cancel, Vector.getElem_set_self]

/-- Settles O16: the sum fits in `pc`, so it is exact. -/
theorem indexedJumpResult : Obligations.IndexedJumpResult :=
  ⟨rfl, rfl, rfl, fun nnn s => ⟨_, exec_jpV0Nnn nnn s, toNat_indexedTarget _ _, rfl⟩⟩

/-- Settles O18: the skips of two registers; a register always equals itself. -/
theorem registerSkipResult : Obligations.RegisterSkipResult := by
  refine ⟨rfl, rfl, fun x y s => ⟨?_, ?_, ?_, ?_⟩⟩
  · rw [exec_seVxVy, State.skipIf_advance_beq]
  · rw [exec_sneVxVy, State.skipIf_advance_bne]
  · rw [exec_seVxVy, State.skipIf_advance_beq, if_pos rfl]
  · rw [exec_sneVxVy, State.skipIf_advance_bne, if_pos rfl]

end Sys2Proof.Machine
end

section
/-! PROOFS. Arithmetic and logic (spec/41_alu.md): 8XY1 to 8XYE and CXNN. -/

namespace Sys2Proof.Machine

/-- Settles O22: each operation is the bit vector's own, read bit by bit. -/
theorem logicResult : Obligations.LogicResult := by
  refine ⟨rfl, rfl, rfl, fun x y s => ⟨?_, ?_, ?_⟩⟩
  · obtain ⟨t, hexec, hreg, hframe⟩ := exec_frame_of_setReg_advance (exec_orVxVy x y s)
    exact ⟨t, hexec, fun j _ => by rw [hreg, BitVec.getLsbD_or], hframe⟩
  · obtain ⟨t, hexec, hreg, hframe⟩ := exec_frame_of_setReg_advance (exec_andVxVy x y s)
    exact ⟨t, hexec, fun j _ => by rw [hreg, BitVec.getLsbD_and], hframe⟩
  · obtain ⟨t, hexec, hreg, hframe⟩ := exec_frame_of_setReg_advance (exec_xorVxVy x y s)
    exact ⟨t, hexec, fun j _ => by rw [hreg, BitVec.getLsbD_xor], hframe⟩

/-- An instruction that advances and writes a result and then its flag: VF is the flag, whatever X is (R133). -/
theorem exec_frame_of_setRegFlag_advance {i : Instr} {s : State} {x : Nibble} {b : Byte} {f : Bool}
    (h : exec i s = .next (s.advance.setRegFlag true x b f)) :
    ∃ t, exec i s = .next t ∧ t.reg 0xF = flagByte f ∧ (x ≠ 0xF → t.reg x = b) ∧ SameRegsBut [x, 0xF] s t ∧
      t.pc = s.pc + 2 ∧ SameButRegs s t := by
  refine ⟨_, h, ?_, fun hx => ?_, fun k hk => ?_, rfl, rfl⟩
  · rw [State.reg_setRegFlag_last, if_pos rfl]
  · rw [State.reg_setRegFlag_last, if_neg hx, if_pos rfl]
  · obtain ⟨hx, hf⟩ : k ≠ x ∧ k ≠ 0xF := by simpa using hk
    rw [State.reg_setRegFlag_last, if_neg hf, if_neg hx, State.advance_reg]

theorem flagByte_carry (a b : Byte) : flagByte (carry a b) = if a.toNat + b.toNat > 255 then 1 else 0 := by
  simp only [flagByte, carry, decide_eq_true_eq]

theorem flagByte_noBorrow (a b : Byte) : flagByte (noBorrow a b) = if a.toNat ≥ b.toNat then 1 else 0 := by
  simp only [flagByte, noBorrow, decide_eq_true_eq]

theorem toNat_flagByte (f : Bool) : (flagByte f).toNat = f.toNat := by
  cases f <;> rfl

/-- The difference of two bytes, without a negative number. -/
theorem toNat_sub_byte (a b : Byte) : (a - b).toNat = (a.toNat + 256 - b.toNat) % 256 := by
  have := b.isLt
  rw [BitVec.toNat_sub]
  omega

theorem toNat_lowBit (a : Byte) : (lowBit a).toNat = a.toNat % 2 := by
  rw [lowBit, BitVec.getLsbD, Nat.testBit_zero]
  obtain h | h := Nat.mod_two_eq_zero_or_one a.toNat <;> simp [h]

theorem toNat_highBit (a : Byte) : (highBit a).toNat = a.toNat / 128 := by
  have hlt := a.isLt
  have hbit : a.toNat / 2 ^ 7 % 2 = a.toNat / 128 := Nat.mod_eq_of_lt (by omega)
  rw [highBit, BitVec.getLsbD, Nat.testBit_eq_decide_div_mod_eq, hbit]
  obtain h | h : a.toNat / 128 = 0 ∨ a.toNat / 128 = 1 := by omega
  all_goals simp [h]

/-- Settles O23: the sum modulo 256 with the flag `carry` of the old values. -/
theorem addRegistersResult : Obligations.AddRegistersResult := by
  refine ⟨rfl, rfl, rfl, rfl, fun x y s => ?_⟩
  obtain ⟨t, hexec, hflag, hreg, hframe⟩ := exec_frame_of_setRegFlag_advance (exec_addVxVy x y s)
  exact ⟨t, hexec, hflag.trans (flagByte_carry _ _), fun hx => by rw [hreg hx, BitVec.toNat_add], hframe⟩

/-- Settles O24: both differences modulo 256, with the flag `noBorrow` of the old values. -/
theorem subtractRegistersResult : Obligations.SubtractRegistersResult := by
  refine ⟨rfl, rfl, rfl, rfl, fun x y s => ⟨?_, ?_⟩⟩
  · obtain ⟨t, hexec, hflag, hreg, hframe⟩ := exec_frame_of_setRegFlag_advance (exec_subVxVy x y s)
    exact ⟨t, hexec, hflag.trans (flagByte_noBorrow _ _), fun hx => by rw [hreg hx, toNat_sub_byte], hframe⟩
  · obtain ⟨t, hexec, hflag, hreg, hframe⟩ := exec_frame_of_setRegFlag_advance (exec_subnVxVy x y s)
    exact ⟨t, hexec, hflag.trans (flagByte_noBorrow _ _), fun hx => by rw [hreg hx, toNat_sub_byte], hframe⟩

/-- Settles O25: a shift by one halves or doubles, and the flag is the bit it drops. -/
theorem shiftResult : Obligations.ShiftResult := by
  refine ⟨rfl, rfl, rfl, rfl, fun x y s => ⟨?_, ?_, rfl, rfl⟩⟩
  · obtain ⟨t, hexec, hflag, hreg, hframe⟩ := exec_frame_of_setRegFlag_advance (exec_shrVx x y s)
    refine ⟨t, hexec, ?_, fun hx => ?_, hframe⟩
    · rw [hflag, toNat_flagByte, toNat_lowBit]
    · rw [hreg hx, BitVec.toNat_ushiftRight, Nat.shiftRight_eq_div_pow, pow_one]
  · obtain ⟨t, hexec, hflag, hreg, hframe⟩ := exec_frame_of_setRegFlag_advance (exec_shlVx x y s)
    refine ⟨t, hexec, ?_, fun hx => ?_, hframe⟩
    · rw [hflag, toNat_flagByte, toNat_highBit]
    · rw [hreg hx, BitVec.toNat_shiftLeft, Nat.shiftLeft_eq, pow_one, Nat.mul_comm]

/-- Settles O26: the mask clears every bit that is 0 in NN, and 0xFF clears none. -/
theorem randomByteResult : Obligations.RandomByteResult := by
  refine ⟨rfl, rfl, rfl, fun x nn s => ⟨_, exec_rndVxNn x nn s, fun j hj => ?_, ?_, State.reg_setReg_self _ _ _,
    s.sameRegsBut_setReg_advance x _, rfl, rfl, rfl⟩⟩
  · rw [State.reg_setReg_self, BitVec.getLsbD_and, hj, Bool.and_false]
  · rintro rfl
    exact (State.reg_setReg_self _ _ _).trans BitVec.and_allOnes

end Sys2Proof.Machine
end

section
/-! PROOFS. Index and memory (spec/42_index_memory.md): FX1E, and the transfers FX33, FX55 and FX65 with their bound. -/

namespace Sys2Proof.Machine

/-- Settles O28: `I` becomes the sum modulo 4096, and nothing else but `pc` is written. -/
theorem addIndexResult : Obligations.AddIndexResult :=
  ⟨rfl, rfl, rfl, rfl, rfl,
    fun x s => exec_frame_of_setIndex_advance (exec_addIVx x s) (toNat_ofNat_mod_4096 _)⟩

/-! ### Transfers with their range in memory -/

theorem exec_ldBVx_of_fits {s : State} (h : s.i.toNat + 2 < hardware.memSize) (x : Nibble) :
    exec (.ldBVx x) s = .next (s.advance.storeBytes s.i.toNat (decimalDigits (s.reg x))) :=
  (exec_ldBVx x s).trans (State.guardRange_of_fits ((rangeFits_iff _ _ _).2 (.inr h)))

theorem exec_ldMemVx_of_fits {s : State} {x : Nibble} (h : s.i.toNat + x.toNat < hardware.memSize) :
    exec (.ldMemVx x) s = .next (s.advance.storeBytes s.i.toNat (s.regsUpTo x)) :=
  (exec_ldMemVx x s).trans (State.guardRange_of_fits ((rangeFits_iff _ _ _).2 (.inr h)))

theorem exec_ldVxMem_of_fits {s : State} {x : Nibble} (h : s.i.toNat + x.toNat < hardware.memSize) :
    exec (.ldVxMem x) s = .next (s.advance.loadRegs x) :=
  (exec_ldVxMem x s).trans (State.guardRange_of_fits ((rangeFits_iff _ _ _).2 (.inr h)))

theorem State.byteAt_storeBytes_inside (s : State) {a k : Nat} {bs : List Byte} (h : k < bs.length) :
    (s.storeBytes a bs).byteAt (a + k) = bs[k] :=
  memRead_writeList_inside s.mem bs h

theorem State.byteAt_storeBytes_outside (s : State) {a a' : Nat} {bs : List Byte}
    (h : a' < a ∨ a + bs.length ≤ a') : (s.storeBytes a bs).byteAt a' = s.byteAt a' :=
  memRead_writeList_outside s.mem bs h

/-- The number of a byte below 256 is kept. -/
theorem toNat_ofNat_byte {n : Nat} (h : n < 256) : (BitVec.ofNat 8 n).toNat = n := by
  rw [BitVec.toNat_ofNat, Nat.mod_eq_of_lt h]

/-- The three bytes that FX33 stores, as numbers (R154). -/
theorem State.toNat_byteAt_storeBytes_decimalDigits (s : State) (a : Nat) (b : Byte) :
    ((s.storeBytes a (decimalDigits b)).byteAt a).toNat = b.toNat / 100 ∧
      ((s.storeBytes a (decimalDigits b)).byteAt (a + 1)).toNat = b.toNat / 10 % 10 ∧
      ((s.storeBytes a (decimalDigits b)).byteAt (a + 2)).toNat = b.toNat % 10 := by
  have := b.isLt
  have hstored {k : Nat} (hk : k < (decimalDigits b).length) := s.byteAt_storeBytes_inside (a := a) hk
  refine ⟨?_, ?_, ?_⟩
  · exact (congrArg _ (hstored (k := 0) (Nat.zero_lt_succ _))).trans (toNat_ofNat_byte (by omega))
  · exact (congrArg _ (hstored (k := 1) (Nat.one_lt_succ_succ _))).trans (toNat_ofNat_byte (by omega))
  · exact (congrArg _ (hstored (k := 2) (Nat.lt_succ_self _))).trans (toNat_ofNat_byte (by omega))

/-- Settles O30: the three bytes stored are the digits, which determine the number. -/
theorem decimalDigitsStored : Obligations.DecimalDigitsStored := by
  refine ⟨rfl, rfl, rfl, rfl, fun x s hfits => ⟨_, exec_ldBVx_of_fits hfits x, ?_⟩⟩
  obtain ⟨hhundreds, htens, hones⟩ :=
    s.advance.toNat_byteAt_storeBytes_decimalDigits s.i.toNat (s.reg x)
  rw [hhundreds, htens, hones]
  exact ⟨by omega, by omega, by omega, fun a ha => s.advance.byteAt_storeBytes_outside ha, rfl, rfl⟩

/-- Byte `k` of the bytes that FX55 stores is `V[k]`. -/
theorem State.byteAt_storeBytes_regsUpTo (s u : State) {x k : Nibble} (hk : k.toNat ≤ x.toNat) (a : Nat) :
    (u.storeBytes a (s.regsUpTo x)).byteAt (a + k.toNat) = s.reg k := by
  have hlength : k.toNat < (s.regsUpTo x).length := by rw [s.length_regsUpTo]; omega
  rw [State.byteAt_storeBytes_inside u hlength, State.getElem_regsUpTo]

/-- Settles O31: the bytes stored are the registers in order, as many as the checked range has. -/
theorem registersStored : Obligations.RegistersStored := by
  refine ⟨rfl, rfl, rfl, rfl, fun x s hfits => ⟨_, exec_ldMemVx_of_fits hfits, fun k hk =>
    s.byteAt_storeBytes_regsUpTo _ hk _, fun a ha => s.advance.byteAt_storeBytes_outside ?_, rfl, rfl⟩⟩
  rwa [s.length_regsUpTo, ← Nat.add_assoc]

/-- Settles O32: the load writes each register up to X from its address, and the registers alone. -/
theorem registersLoaded : Obligations.RegistersLoaded := by
  refine ⟨rfl, rfl, rfl, rfl, fun x s hfits => ⟨_, exec_ldVxMem_of_fits hfits, fun k hk => ?_, fun k hk => ?_,
    s.advance.loadRegs_pc x, s.advance.loadRegs_eq x⟩⟩
  · exact (s.advance.reg_loadRegs x k).trans (if_pos hk)
  · exact (s.advance.reg_loadRegs x k).trans (if_neg (Nat.not_le.2 hk))

/-- Settles O33: the store keeps `I`, so the load reads back each byte where it was stored. -/
theorem loadAfterStoreRestoresRegisters : Obligations.LoadAfterStoreRestoresRegisters := by
  refine ⟨rfl, rfl, rfl, fun x s v hfits => ⟨_, exec_ldMemVx_of_fits hfits, _,
    exec_ldVxMem_of_fits (s := { s.advance.storeBytes s.i.toNat (s.regsUpTo x) with v := v }) hfits, fun k hk => ?_⟩⟩
  rw [State.reg_loadRegs, if_pos hk]
  exact s.byteAt_storeBytes_regsUpTo s.advance hk s.i.toNat

/-! ### Transfers past the end of memory -/

/-- A range of at least one byte that passes the end of memory raises, with the address of its first byte outside
(R55, R157). -/
theorem State.guardRange_of_overrun {s t : State} {n : Nat} (hn : 0 < n)
    (h : hardware.memSize ≤ s.i.toNat + n - 1) :
    s.guardRange hardware n t = .next (s.raise .addressOutOfRange (firstOutside hardware s.i)) := by
  refine State.guardRange_of_outside ?_
  rw [← Bool.not_eq_true, rangeFits_iff]
  omega

/-- Settles O34: each transfer is guarded by the same check before its first access. -/
theorem transferOutOfRangeLatches : Obligations.TransferOutOfRangeLatches := by
  refine ⟨rfl, rfl, rfl, rfl, fun s => ⟨firstOutside hardware s.i, firstOutside_toNat (by decide) _, fun h x => ?_,
    fun x h => ⟨?_, ?_⟩, fun x y n hn h => ?_⟩⟩
  · exact (exec_ldBVx x s).trans (State.guardRange_of_overrun (by decide) h)
  · exact (exec_ldMemVx x s).trans (State.guardRange_of_overrun (Nat.succ_pos _) h)
  · exact (exec_ldVxMem x s).trans (State.guardRange_of_overrun (Nat.succ_pos _) h)
  · exact (exec_drwVxVyN x y n s).trans (State.guardRange_of_overrun hn h)

end Sys2Proof.Machine
end

section
/-! PROOFS. Keypad (spec/44_keypad_timers.md): the skips of EX9E and EXA1. -/

namespace Sys2Proof.Machine

/-- Settles O39: a key skips by its state, a number that is no key raises. -/
theorem keySkipResult : Obligations.KeySkipResult := by
  refine ⟨rfl, rfl, rfl, rfl, rfl, fun x s => ⟨fun hkey => ⟨?_, ?_⟩, fun hnone => ⟨zext16 (s.reg x), ?_, ?_, ?_⟩⟩⟩
  · rw [exec_skpVx, State.keySkip_of_key hkey, State.skipIf_advance, beq_true]
  · rw [exec_sknpVx, State.keySkip_of_key hkey, State.skipIf_advance]
    cases s.keyDown (s.reg x).toNat <;> rfl
  · exact BitVec.toNat_setWidth_of_le (by decide)
  · exact State.keySkip_of_no_key hnone true
  · exact State.keySkip_of_no_key hnone false

end Sys2Proof.Machine
end

section
/-! PROOFS. The draw (spec/43_display.md R172 to R178): the loops of pixels and rows, as one exclusive or with the
sprite's bits. -/

namespace Sys2Proof.Machine

/-! ### Drawing a set of bits -/

/-- `e` is `d` with the bits `S` drawn: each cell of the screen is flipped by its bit, and a bit on a lit cell
collides. -/
structure Draws (S : Nat → Nat → Bool) (d e : Blit) : Prop where
  lit : ∀ qx qy, qx < hardware.dispW → qy < hardware.dispH →
    e.display.lit qx qy = (d.display.lit qx qy != S qx qy)
  collide : e.collide = true ↔ d.collide = true ∨ ∃ qx qy, d.display.lit qx qy = true ∧ S qx qy = true

theorem Display.on_screen_of_lit {d : Display} {qx qy : Nat} (h : d.lit qx qy = true) :
    qx < hardware.dispW ∧ qy < hardware.dispH := by
  by_contra hoff
  rw [Display.lit_outside d (by omega)] at h
  contradiction

theorem Draws.of_none {S : Nat → Nat → Bool} (hS : ∀ qx qy, S qx qy = false) (d : Blit) : Draws S d d :=
  ⟨fun qx qy _ _ => by rw [hS, Bool.bne_false], by simp [hS]⟩

/-- A cell that none of the bits falls on is as before, on the screen and off it. -/
theorem Draws.lit_of_not {S : Nat → Nat → Bool} {d e : Blit} (h : Draws S d e) {qx qy : Nat} (hS : S qx qy = false) :
    e.display.lit qx qy = d.display.lit qx qy := by
  by_cases hon : qx < hardware.dispW ∧ qy < hardware.dispH
  · rw [h.lit qx qy hon.1 hon.2, hS, Bool.bne_false]
  · rw [Display.lit_outside _ (by omega), Display.lit_outside _ (by omega)]

/-- Two sets of bits that share no cell, drawn one after the other, are their union drawn: the first does not change
what the second collides with. -/
theorem Draws.trans {S T U : Nat → Nat → Bool} {d e f : Blit} (hde : Draws S d e) (hef : Draws T e f)
    (hdisjoint : ∀ qx qy, T qx qy = true → S qx qy = false) (hU : ∀ qx qy, U qx qy = (S qx qy || T qx qy)) :
    Draws U d f := by
  refine ⟨fun qx qy hx hy => ?_, ?_⟩
  · rw [hef.lit qx qy hx hy, hde.lit qx qy hx hy, hU]
    cases hT : T qx qy with
    | false => rw [Bool.bne_false, Bool.or_false]
    | true => rw [hdisjoint qx qy hT, Bool.bne_false, Bool.false_or]
  · have hsecond : (∃ qx qy, e.display.lit qx qy = true ∧ T qx qy = true) ↔
        ∃ qx qy, d.display.lit qx qy = true ∧ T qx qy = true :=
      exists₂_congr fun qx qy => and_congr_left fun hT => by rw [hde.lit_of_not (hdisjoint qx qy hT)]
    simp only [hef.collide, hde.collide, hsecond, hU, Bool.or_eq_true, and_or_left, exists_or, or_assoc]

/-- A loop that draws the disjoint sets `P 0`, `P 1`, ... one after the other draws their union `S n`. -/
theorem Draws.foldl_range {pixels : Nat → Blit → Blit} {P S : Nat → Nat → Nat → Bool}
    (hpixels : ∀ k d, Draws (P k) d (pixels k d)) (hzero : ∀ qx qy, S 0 qx qy = false)
    (hsucc : ∀ k qx qy, S (k + 1) qx qy = (S k qx qy || P k qx qy))
    (hdisjoint : ∀ k qx qy, P k qx qy = true → S k qx qy = false) (n : Nat) (d : Blit) :
    Draws (S n) d ((List.range n).foldl (fun d k => pixels k d) d) := by
  induction n with
  | zero => exact .of_none hzero d
  | succ n ih =>
    rw [List.range_succ, List.foldl_append]
    exact ih.trans (hpixels n _) (hdisjoint n) (hsucc n)

/-! ### The pixel, the row and the sprite -/

theorem drawPixel_draws (px py : Nat) (bit : Bool) (d : Blit) :
    Draws (fun qx qy => decide (qx = px ∧ qy = py) && bit) d (drawPixel hardware px py bit d) := by
  obtain ⟨hlit, hcollide⟩ := drawPixel_spec px py bit d
  refine ⟨fun qx qy hx hy => ?_, ?_⟩
  · rw [hlit]
    by_cases hq : qx = px ∧ qy = py
    · obtain ⟨rfl, rfl⟩ := hq
      simp [hx, hy]
    · simp [hq]
  · rw [hcollide]
    simp only [Bool.or_eq_true, Bool.and_eq_true, decide_eq_true_eq]
    refine or_congr_right ⟨fun ⟨hbit, hcell⟩ => ⟨px, py, hcell, ⟨rfl, rfl⟩, hbit⟩, ?_⟩
    rintro ⟨_, _, hcell, ⟨rfl, rfl⟩, hbit⟩
    exact ⟨hbit, hcell⟩

/-- The bits of the first `n` columns of a row: bit `7 - k` of the byte at column `x0 + k` (R173). -/
def rowBits (x0 py : Nat) (b : Byte) (n qx qy : Nat) : Bool :=
  decide (x0 ≤ qx ∧ qx < x0 + n ∧ qy = py) && b.getLsbD (7 - (qx - x0))

/-- The bits of the first `n` rows of a sprite: row `r` is the byte at `base + r`, at `y0 + r` (R172, R173). -/
def spriteBits (m : Memory) (base x0 y0 n qx qy : Nat) : Bool :=
  decide (x0 ≤ qx ∧ qx < x0 + 8 ∧ y0 ≤ qy ∧ qy < y0 + n) && (memRead m (base + (qy - y0))).getLsbD (7 - (qx - x0))

theorem drawRow_draws (x0 py : Nat) (b : Byte) (d : Blit) :
    Draws (rowBits x0 py b 8) d (drawRow hardware x0 py b d) := by
  refine Draws.foldl_range (S := rowBits x0 py b) (fun k d => drawPixel_draws (x0 + k) py _ d)
    (fun qx qy => ?_) (fun k qx qy => ?_) (fun k qx qy h => ?_) 8 d
  · rw [rowBits, decide_eq_false (by omega), Bool.false_and]
  · by_cases hk : qx = x0 + k
    · subst hk
      simp [rowBits]
    · have hsplit : (x0 ≤ qx ∧ qx < x0 + (k + 1) ∧ qy = py) ↔ (x0 ≤ qx ∧ qx < x0 + k ∧ qy = py) := by omega
      simp [rowBits, hk, hsplit]
  · obtain ⟨hx, -⟩ : qx = x0 + k ∧ qy = py := of_decide_eq_true (Bool.and_eq_true_iff.1 h).1
    rw [rowBits, decide_eq_false (by omega), Bool.false_and]

theorem drawRows_draws (m : Memory) (base x0 y0 n : Nat) (d : Blit) :
    Draws (spriteBits m base x0 y0 n) d (drawRows hardware m base x0 y0 n d) := by
  refine Draws.foldl_range (S := spriteBits m base x0 y0) (fun r d => drawRow_draws x0 (y0 + r) _ d)
    (fun qx qy => ?_) (fun r qx qy => ?_) (fun r qx qy h => ?_) n d
  · rw [spriteBits, decide_eq_false (by omega), Bool.false_and]
  · by_cases hr : qy = y0 + r
    · subst hr
      simp [spriteBits, rowBits]
    · have hsplit : (x0 ≤ qx ∧ qx < x0 + 8 ∧ y0 ≤ qy ∧ qy < y0 + (r + 1)) ↔
          (x0 ≤ qx ∧ qx < x0 + 8 ∧ y0 ≤ qy ∧ qy < y0 + r) := by omega
      simp [spriteBits, rowBits, hr, hsplit]
  · obtain ⟨-, -, hy⟩ : x0 ≤ qx ∧ qx < x0 + 8 ∧ qy = y0 + r := of_decide_eq_true (Bool.and_eq_true_iff.1 h).1
    rw [spriteBits, decide_eq_false (by omega), Bool.false_and]

/-- The blit of DXYN draws the sprite at `I`. -/
theorem State.blit_draws (s : State) (x y n : Nibble) :
    Draws (s.spriteBit ((s.reg x).toNat % hardware.dispW) ((s.reg y).toNat % hardware.dispH) n.toNat)
      ⟨s.display, false⟩ (s.blit hardware x y n) :=
  drawRows_draws s.mem s.i.toNat _ _ _ _

/-! ### The instruction -/

theorem exec_drwVxVyN_of_fits {s : State} {n : Nibble} (h : n.toNat = 0 ∨ s.i.toNat + n.toNat ≤ hardware.memSize)
    (x y : Nibble) :
    exec (.drwVxVyN x y n) s = .next
      ((s.advance.setDisplay (s.blit hardware x y n).display).setReg vf (flagByte (s.blit hardware x y n).collide)) :=
  (exec_drwVxVyN x y n s).trans (State.guardRange_of_fits ((rangeFits_iff _ _ _).2 h))

theorem flagByte_eq_one_iff {f : Bool} : flagByte f = 1 ↔ f = true := by
  cases f <;> decide

theorem flagByte_eq_zero_or_one (f : Bool) : flagByte f = 0 ∨ flagByte f = 1 := by
  cases f <;> decide

/-- Settles O36: the blit is the exclusive or with the sprite's bits, and VF its collision, which only a cell of the
screen can have. -/
theorem drawXorsClippedSprite : Obligations.DrawXorsClippedSprite := by
  refine ⟨rfl, rfl, rfl, rfl, fun x y n s hfits => ?_⟩
  have hblit := s.blit_draws x y n
  refine ⟨_, exec_drwVxVyN_of_fits hfits x y, hblit.lit, ?_, ?_, fun k hk => ?_, rfl, rfl⟩
  · rw [State.reg_setReg_self, flagByte_eq_one_iff, hblit.collide]
    constructor
    · rintro (hfalse | ⟨px, py, hlit, hbit⟩)
      · contradiction
      · obtain ⟨hx, hy⟩ := Display.on_screen_of_lit hlit
        exact ⟨px, py, hx, hy, hlit, hbit⟩
    · rintro ⟨px, py, -, -, hlit, hbit⟩
      exact .inr ⟨px, py, hlit, hbit⟩
  · rw [State.reg_setReg_self]
    exact flagByte_eq_zero_or_one _
  · rw [State.reg_setReg_of_ne _ _ (List.ne_of_not_mem_cons hk), State.setDisplay_reg, State.advance_reg]

/-- A draw at registers other than VF leaves the sprite and its place as they were, so it can be repeated. -/
theorem spriteBit_after_draw {s t : State} {x y : Nibble} (hx : x ≠ 0xF) (hy : y ≠ 0xF) (hregs : SameRegsBut [0xF] s t)
    (hframe : SameButDraw s t) (n : Nibble) :
    t.spriteBit ((t.reg x).toNat % hardware.dispW) ((t.reg y).toNat % hardware.dispH) n.toNat =
      s.spriteBit ((s.reg x).toNat % hardware.dispW) ((s.reg y).toNat % hardware.dispH) n.toNat := by
  have hsprite : t.spriteBit = s.spriteBit := by rw [hframe]; rfl
  rw [hregs x (by simpa using hx), hregs y (by simpa using hy), hsprite]

/-- Settles O37: the second draw flips the same cells back; on a clear screen it finds each of the first draw's bits
lit. -/
theorem drawTwiceRestoresDisplay : Obligations.DrawTwiceRestoresDisplay := by
  refine ⟨rfl, rfl, rfl, fun x y n s hx hy hfits => ?_⟩
  obtain ⟨-, -, -, -, hdraw⟩ := drawXorsClippedSprite
  obtain ⟨t, ht, hlit, -, -, hregs, -, hframe⟩ := hdraw x y n s (.inr hfits)
  have hfits' : t.i.toNat + n.toNat ≤ hardware.memSize := by rw [hframe]; exact hfits
  obtain ⟨u, hu, hlit', hflag', -⟩ := hdraw x y n t (.inr hfits')
  have hbits := spriteBit_after_draw hx hy hregs hframe n
  refine ⟨t, u, ht, hu, Display.ext_lit fun px py hpx hpy => ?_, fun hclear ⟨px, py, hpx, hpy, hbit⟩ => ?_⟩
  · rw [hlit' px py hpx hpy, hlit px py hpx hpy, hbits, Bool.bne_assoc, bne_self_eq_false, Bool.bne_false]
  · refine hflag'.2 ⟨px, py, hpx, hpy, ?_, hbits ▸ hbit⟩
    rw [hlit px py hpx hpy, hclear, hbit]
    rfl

/-- Settles O38: a sprite of no rows draws nothing and cannot collide, and its empty range is never out of memory. -/
theorem zeroRowDrawOnlyClearsFlag : Obligations.ZeroRowDrawOnlyClearsFlag :=
  ⟨rfl, rfl, rfl, fun x y _ => exec_frame_of_setReg_advance (exec_drwVxVyN_of_fits (.inl rfl) x y)⟩

end Sys2Proof.Machine
end
